-- ==== Sys2Proof/Word.lean ====
section
/-! DEFINITION. The word types of the core and their plainest arithmetic (10 R30, R34; 00 R10, R12). -/

namespace Sys2Proof

/-- A byte: D, B, T and every memory cell (00 R9 `DATA_WIDTH`). -/
abbrev Byte := BitVec 8

/-- A scratchpad register and a memory address (00 R9 `REG_WIDTH`, `ADDR_WIDTH`). -/
abbrev Word := BitVec 16

/-- P, X, I and N, and a register number (10 R31, R32, R37). -/
abbrev Nibble := BitVec 4

/-- A port number, the N0/N1/N2 lines (20 R78). -/
abbrev Port := BitVec 3

/-- A clock frequency in Hz, positive (00 R9 `CLOCK_HZ`; 92 D21: a model takes it as a positive parameter). -/
abbrev Frequency := { f : Rat // 0 < f }

/-- `inc16(v) = (v + 1) mod 65536` (00 R12). -/
def inc16 (v : Word) : Word := v + 1

/-- `dec16(v) = (v - 1) mod 65536` (00 R12). -/
def dec16 (v : Word) : Word := v - 1

end Sys2Proof
end

