-- ==== Sys2Proof/Syntax.lean ====
section
/-! DEFINITION. The instructions, one constructor per row of spec/opcode_table.json (30 R104). A register number `n`
is a number 0..15 (WellFormed.lean checks it); `k` is an immediate byte, `a` a short-branch byte, `hl` a long-branch
target, high byte first in memory, `x` the byte SKP skips (30 R101, R102). -/

namespace Sys2Proof

/-- One instruction: its opcode and, where its format has them, its operand bytes (30 R101). -/
inductive Instr where
  /-- `IDL`, opcode 0x00 (45 R280). -/
  | idl
  /-- `LDN 1`, opcode 0x01 (41 R160). -/
  | ldn1
  /-- `LDN 2`, opcode 0x02 (41 R160). -/
  | ldn2
  /-- `LDN 3`, opcode 0x03 (41 R160). -/
  | ldn3
  /-- `LDN 4`, opcode 0x04 (41 R160). -/
  | ldn4
  /-- `LDN 5`, opcode 0x05 (41 R160). -/
  | ldn5
  /-- `LDN 6`, opcode 0x06 (41 R160). -/
  | ldn6
  /-- `LDN 7`, opcode 0x07 (41 R160). -/
  | ldn7
  /-- `LDN 8`, opcode 0x08 (41 R160). -/
  | ldn8
  /-- `LDN 9`, opcode 0x09 (41 R160). -/
  | ldn9
  /-- `LDN 10`, opcode 0x0A (41 R160). -/
  | ldn10
  /-- `LDN 11`, opcode 0x0B (41 R160). -/
  | ldn11
  /-- `LDN 12`, opcode 0x0C (41 R160). -/
  | ldn12
  /-- `LDN 13`, opcode 0x0D (41 R160). -/
  | ldn13
  /-- `LDN 14`, opcode 0x0E (41 R160). -/
  | ldn14
  /-- `LDN 15`, opcode 0x0F (41 R160). -/
  | ldn15
  /-- `INC n`, opcode 0x1n (42 R170). -/
  | inc (n : Nat)
  /-- `DEC n`, opcode 0x2n (42 R171). -/
  | dec (n : Nat)
  /-- `LDA n`, opcode 0x4n (41 R161). -/
  | lda (n : Nat)
  /-- `STR n`, opcode 0x5n (41 R165). -/
  | str (n : Nat)
  /-- `GLO n`, opcode 0x8n (42 R173). -/
  | glo (n : Nat)
  /-- `GHI n`, opcode 0x9n (42 R174). -/
  | ghi (n : Nat)
  /-- `PLO n`, opcode 0xAn (42 R175). -/
  | plo (n : Nat)
  /-- `PHI n`, opcode 0xBn (42 R176). -/
  | phi (n : Nat)
  /-- `SEP n`, opcode 0xDn (42 R177). -/
  | sep (n : Nat)
  /-- `SEX n`, opcode 0xEn (42 R178). -/
  | sex (n : Nat)
  /-- `BR a`, opcode 0x30 (44 R231). -/
  | br (a : Byte)
  /-- `BQ a`, opcode 0x31 (44 R232). -/
  | bq (a : Byte)
  /-- `BZ a`, opcode 0x32 (44 R233). -/
  | bz (a : Byte)
  /-- `BDF a`, opcode 0x33 (44 R234). -/
  | bdf (a : Byte)
  /-- `B1 a`, opcode 0x34 (44 R235). -/
  | b1 (a : Byte)
  /-- `B2 a`, opcode 0x35 (44 R236). -/
  | b2 (a : Byte)
  /-- `B3 a`, opcode 0x36 (44 R237). -/
  | b3 (a : Byte)
  /-- `B4 a`, opcode 0x37 (44 R238). -/
  | b4 (a : Byte)
  /-- `SKP`, opcode 0x38 (44 R239). -/
  | skp (x : Byte)
  /-- `BNQ a`, opcode 0x39 (44 R240). -/
  | bnq (a : Byte)
  /-- `BNZ a`, opcode 0x3A (44 R241). -/
  | bnz (a : Byte)
  /-- `BNF a`, opcode 0x3B (44 R242). -/
  | bnf (a : Byte)
  /-- `BN1 a`, opcode 0x3C (44 R243). -/
  | bn1 (a : Byte)
  /-- `BN2 a`, opcode 0x3D (44 R244). -/
  | bn2 (a : Byte)
  /-- `BN3 a`, opcode 0x3E (44 R245). -/
  | bn3 (a : Byte)
  /-- `BN4 a`, opcode 0x3F (44 R246). -/
  | bn4 (a : Byte)
  /-- `IRX`, opcode 0x60 (42 R172). -/
  | irx
  /-- `OUT 1`, opcode 0x61 (45 R281). -/
  | out1
  /-- `OUT 2`, opcode 0x62 (45 R281). -/
  | out2
  /-- `OUT 3`, opcode 0x63 (45 R281). -/
  | out3
  /-- `OUT 4`, opcode 0x64 (45 R281). -/
  | out4
  /-- `OUT 5`, opcode 0x65 (45 R281). -/
  | out5
  /-- `OUT 6`, opcode 0x66 (45 R281). -/
  | out6
  /-- `OUT 7`, opcode 0x67 (45 R281). -/
  | out7
  /-- `INP 0 (opcode 0x68, P_OP68)`, opcode 0x68 (45 R282). -/
  | inp0
  /-- `INP 1`, opcode 0x69 (45 R283). -/
  | inp1
  /-- `INP 2`, opcode 0x6A (45 R283). -/
  | inp2
  /-- `INP 3`, opcode 0x6B (45 R283). -/
  | inp3
  /-- `INP 4`, opcode 0x6C (45 R283). -/
  | inp4
  /-- `INP 5`, opcode 0x6D (45 R283). -/
  | inp5
  /-- `INP 6`, opcode 0x6E (45 R283). -/
  | inp6
  /-- `INP 7`, opcode 0x6F (45 R283). -/
  | inp7
  /-- `RET`, opcode 0x70 (45 R287). -/
  | ret
  /-- `DIS`, opcode 0x71 (45 R288). -/
  | dis
  /-- `LDXA`, opcode 0x72 (41 R163). -/
  | ldxa
  /-- `STXD`, opcode 0x73 (41 R166). -/
  | stxd
  /-- `ADC`, opcode 0x74 (43 R203). -/
  | adc
  /-- `SDB`, opcode 0x75 (43 R207). -/
  | sdb
  /-- `SHRC`, opcode 0x76 (43 R214). -/
  | shrc
  /-- `SMB`, opcode 0x77 (43 R211). -/
  | smb
  /-- `SAV`, opcode 0x78 (45 R291). -/
  | sav
  /-- `MARK`, opcode 0x79 (45 R292). -/
  | mark
  /-- `REQ`, opcode 0x7A (45 R293). -/
  | req
  /-- `SEQ`, opcode 0x7B (45 R294). -/
  | seq
  /-- `ADCI k`, opcode 0x7C (43 R204). -/
  | adci (k : Byte)
  /-- `SDBI k`, opcode 0x7D (43 R208). -/
  | sdbi (k : Byte)
  /-- `SHLC`, opcode 0x7E (43 R216). -/
  | shlc
  /-- `SMBI k`, opcode 0x7F (43 R212). -/
  | smbi (k : Byte)
  /-- `LBR hl`, opcode 0xC0 (44 R252). -/
  | lbr (hl : Word)
  /-- `LBQ hl`, opcode 0xC1 (44 R253). -/
  | lbq (hl : Word)
  /-- `LBZ hl`, opcode 0xC2 (44 R254). -/
  | lbz (hl : Word)
  /-- `LBDF hl`, opcode 0xC3 (44 R255). -/
  | lbdf (hl : Word)
  /-- `NOP`, opcode 0xC4 (44 R256). -/
  | nop
  /-- `LSNQ`, opcode 0xC5 (44 R257). -/
  | lsnq
  /-- `LSNZ`, opcode 0xC6 (44 R258). -/
  | lsnz
  /-- `LSNF`, opcode 0xC7 (44 R259). -/
  | lsnf
  /-- `LSKP`, opcode 0xC8 (44 R260). -/
  | lskp
  /-- `LBNQ hl`, opcode 0xC9 (44 R261). -/
  | lbnq (hl : Word)
  /-- `LBNZ hl`, opcode 0xCA (44 R262). -/
  | lbnz (hl : Word)
  /-- `LBNF hl`, opcode 0xCB (44 R263). -/
  | lbnf (hl : Word)
  /-- `LSIE`, opcode 0xCC (44 R264). -/
  | lsie
  /-- `LSQ`, opcode 0xCD (44 R265). -/
  | lsq
  /-- `LSZ`, opcode 0xCE (44 R266). -/
  | lsz
  /-- `LSDF`, opcode 0xCF (44 R267). -/
  | lsdf
  /-- `LDX`, opcode 0xF0 (41 R162). -/
  | ldx
  /-- `OR`, opcode 0xF1 (43 R195). -/
  | or
  /-- `AND`, opcode 0xF2 (43 R197). -/
  | and
  /-- `XOR`, opcode 0xF3 (43 R199). -/
  | xor
  /-- `ADD`, opcode 0xF4 (43 R201). -/
  | add
  /-- `SD`, opcode 0xF5 (43 R205). -/
  | sd
  /-- `SHR`, opcode 0xF6 (43 R213). -/
  | shr
  /-- `SM`, opcode 0xF7 (43 R209). -/
  | sm
  /-- `LDI k`, opcode 0xF8 (41 R164). -/
  | ldi (k : Byte)
  /-- `ORI k`, opcode 0xF9 (43 R196). -/
  | ori (k : Byte)
  /-- `ANI k`, opcode 0xFA (43 R198). -/
  | ani (k : Byte)
  /-- `XRI k`, opcode 0xFB (43 R200). -/
  | xri (k : Byte)
  /-- `ADI k`, opcode 0xFC (43 R202). -/
  | adi (k : Byte)
  /-- `SDI k`, opcode 0xFD (43 R206). -/
  | sdi (k : Byte)
  /-- `SHL`, opcode 0xFE (43 R215). -/
  | shl
  /-- `SMI k`, opcode 0xFF (43 R210). -/
  | smi (k : Byte)
deriving DecidableEq, Repr

end Sys2Proof
end

