-- ==== Sys2Proof/WellFormed.lean ====
section
/-! DEFINITION. Which terms of `Instr` the encoding can hold: a register number fits its 4-bit field (30 R102 (a)).
Every other operand is a byte or a word of the encoding itself, so any value of it is encodable. -/

namespace Sys2Proof

/-- A register number fits the 4-bit field r = opcode[3:0] (30 R101, R102). -/
def regOk (n : Nat) : Bool := n < 16

/-- The instruction's register number, if its format has one, fits its field. -/
def Instr.wellFormed : Instr → Bool
  | .inc n | .dec n | .lda n | .str n | .glo n | .ghi n | .plo n | .phi n | .sep n | .sex n => regOk n
  | .idl | .ldn1 | .ldn2 | .ldn3 | .ldn4 | .ldn5 | .ldn6 | .ldn7 | .ldn8 | .ldn9 | .ldn10 | .ldn11 | .ldn12
    | .ldn13 | .ldn14 | .ldn15 | .br _ | .bq _ | .bz _ | .bdf _ | .b1 _ | .b2 _ | .b3 _ | .b4 _ | .skp _
    | .bnq _ | .bnz _ | .bnf _ | .bn1 _ | .bn2 _ | .bn3 _ | .bn4 _ | .irx | .out1 | .out2 | .out3 | .out4
    | .out5 | .out6 | .out7 | .inp0 | .inp1 | .inp2 | .inp3 | .inp4 | .inp5 | .inp6 | .inp7 | .ret | .dis
    | .ldxa | .stxd | .adc | .sdb | .shrc | .smb | .sav | .mark | .req | .seq | .adci _ | .sdbi _ | .shlc
    | .smbi _ | .lbr _ | .lbq _ | .lbz _ | .lbdf _ | .nop | .lsnq | .lsnz | .lsnf | .lskp | .lbnq _ | .lbnz _
    | .lbnf _ | .lsie | .lsq | .lsz | .lsdf | .ldx | .or | .and | .xor | .add | .sd | .shr | .sm | .ldi _
    | .ori _ | .ani _ | .xri _ | .adi _ | .sdi _ | .shl | .smi _ => true

end Sys2Proof
end

