-- ==== Sys2Proof/Decode.lean ====
section
/-! DEFINITION. The decoder and the encoder, both written from the opcode map (30 R104), the formats (30 R101), the
operand assembly (30 R102) and the lengths (30 R103). The map is total: every byte value selects one row. -/

namespace Sys2Proof

/-- Why a list of bytes holds no instruction. The opcode map has no illegal entry (30 R106), so the list is too short. -/
inductive DecodeError where
  /-- There is no opcode byte. -/
  | noOpcode
  /-- The operand bytes that the opcode calls for are missing. -/
  | truncated
deriving DecidableEq, Repr

/-- Row 0 of the opcode map, by the low nibble (30 R104). -/
def decodeRow0 (lo : Nat) : Instr :=
  match lo with
  | 0 => .idl
  | 1 => .ldn1
  | 2 => .ldn2
  | 3 => .ldn3
  | 4 => .ldn4
  | 5 => .ldn5
  | 6 => .ldn6
  | 7 => .ldn7
  | 8 => .ldn8
  | 9 => .ldn9
  | 10 => .ldn10
  | 11 => .ldn11
  | 12 => .ldn12
  | 13 => .ldn13
  | 14 => .ldn14
  | _ => .ldn15

/-- Row 3 of the opcode map, by the low nibble (30 R104). -/
def decodeRow3 (lo : Nat) (b1 : Byte) : Instr :=
  match lo with
  | 0 => .br b1
  | 1 => .bq b1
  | 2 => .bz b1
  | 3 => .bdf b1
  | 4 => .b1 b1
  | 5 => .b2 b1
  | 6 => .b3 b1
  | 7 => .b4 b1
  | 8 => .skp b1
  | 9 => .bnq b1
  | 10 => .bnz b1
  | 11 => .bnf b1
  | 12 => .bn1 b1
  | 13 => .bn2 b1
  | 14 => .bn3 b1
  | _ => .bn4 b1

/-- Row 6 of the opcode map, by the low nibble (30 R104). -/
def decodeRow6 (lo : Nat) : Instr :=
  match lo with
  | 0 => .irx
  | 1 => .out1
  | 2 => .out2
  | 3 => .out3
  | 4 => .out4
  | 5 => .out5
  | 6 => .out6
  | 7 => .out7
  | 8 => .inp0
  | 9 => .inp1
  | 10 => .inp2
  | 11 => .inp3
  | 12 => .inp4
  | 13 => .inp5
  | 14 => .inp6
  | _ => .inp7

/-- Row 7 of the opcode map, by the low nibble (30 R104). -/
def decodeRow7 (lo : Nat) (b1 : Byte) : Instr :=
  match lo with
  | 0 => .ret
  | 1 => .dis
  | 2 => .ldxa
  | 3 => .stxd
  | 4 => .adc
  | 5 => .sdb
  | 6 => .shrc
  | 7 => .smb
  | 8 => .sav
  | 9 => .mark
  | 10 => .req
  | 11 => .seq
  | 12 => .adci b1
  | 13 => .sdbi b1
  | 14 => .shlc
  | _ => .smbi b1

/-- Row C of the opcode map, by the low nibble (30 R104). -/
def decodeRowC (lo : Nat) (b1 : Byte) (b2 : Byte) : Instr :=
  match lo with
  | 0 => .lbr (b1 ++ b2)
  | 1 => .lbq (b1 ++ b2)
  | 2 => .lbz (b1 ++ b2)
  | 3 => .lbdf (b1 ++ b2)
  | 4 => .nop
  | 5 => .lsnq
  | 6 => .lsnz
  | 7 => .lsnf
  | 8 => .lskp
  | 9 => .lbnq (b1 ++ b2)
  | 10 => .lbnz (b1 ++ b2)
  | 11 => .lbnf (b1 ++ b2)
  | 12 => .lsie
  | 13 => .lsq
  | 14 => .lsz
  | _ => .lsdf

/-- Row F of the opcode map, by the low nibble (30 R104). -/
def decodeRowF (lo : Nat) (b1 : Byte) : Instr :=
  match lo with
  | 0 => .ldx
  | 1 => .or
  | 2 => .and
  | 3 => .xor
  | 4 => .add
  | 5 => .sd
  | 6 => .shr
  | 7 => .sm
  | 8 => .ldi b1
  | 9 => .ori b1
  | 10 => .ani b1
  | 11 => .xri b1
  | 12 => .adi b1
  | 13 => .sdi b1
  | 14 => .shl
  | _ => .smi b1

/-- The instruction that opcode byte `op` selects, with the two bytes after it as its operand bytes: `b1` is the
immediate, the short-branch byte or the high byte of a long-branch target, `b2` the low byte of that target. An
instruction without operand bytes ignores them (30 R100 to R104). -/
def instrOf (op b1 b2 : Byte) : Instr :=
  let lo := op.toNat % 16
  match op.toNat / 16 with
  | 0 => decodeRow0 lo
  | 1 => .inc lo
  | 2 => .dec lo
  | 3 => decodeRow3 lo b1
  | 4 => .lda lo
  | 5 => .str lo
  | 6 => decodeRow6 lo
  | 7 => decodeRow7 lo b1
  | 8 => .glo lo
  | 9 => .ghi lo
  | 10 => .plo lo
  | 11 => .phi lo
  | 12 => decodeRowC lo b1 b2
  | 13 => .sep lo
  | 14 => .sex lo
  | _ => decodeRowF lo b1

/-- How many operand bytes follow the opcode byte: the length of 30 R103, less one. -/
def operandCount (op : Byte) : Nat :=
  let v := op.toNat
  if (0x30 ≤ v ∧ v ≤ 0x3F) ∨ v = 0x7C ∨ v = 0x7D ∨ v = 0x7F ∨ (0xF8 ≤ v ∧ v ≤ 0xFD) ∨ v = 0xFF then 1
  else if (0xC0 ≤ v ∧ v ≤ 0xC3) ∨ (0xC9 ≤ v ∧ v ≤ 0xCB) then 2
  else 0

/-- The first instruction of a list of bytes, and the bytes after it. -/
def decode : List Byte → Except DecodeError (Instr × List Byte)
  | [] => .error .noOpcode
  | op :: rest =>
    match operandCount op, rest with
    | 0, tail => .ok (instrOf op 0 0, tail)
    | 1, b1 :: tail => .ok (instrOf op b1 0, tail)
    | 2, b1 :: b2 :: tail => .ok (instrOf op b1 b2, tail)
    | _, _ => .error .truncated

/-- The instruction in the bits of `w`, bit 0 the least significant bit of the first byte, every bit from `nbits` up
taken as 0. -/
def decodeTableWord (nbits w : Nat) : Option Instr :=
  let v := w % 2 ^ nbits
  match decode [BitVec.ofNat 8 v, BitVec.ofNat 8 (v / 256), BitVec.ofNat 8 (v / 65536)] with
  | .ok (i, _) => some i
  | .error _ => none

/-- An opcode byte with a register number in its low nibble (format `opN`, 30 R101). -/
def opN (hi : Nat) (n : Nat) : Byte := BitVec.ofNat 4 hi ++ BitVec.ofNat 4 n

/-- The high byte of a long-branch target (30 R102 (d)). -/
def targetHigh (hl : Word) : Byte := hl.extractLsb' 8 8

/-- The low byte of a long-branch target (30 R102 (d)). -/
def targetLow (hl : Word) : Byte := hl.extractLsb' 0 8

/-- The bytes of an instruction, first byte at the lowest address (30 R101). -/
def encode : Instr → List Byte
  | .idl => [0x00]
  | .ldn1 => [0x01]
  | .ldn2 => [0x02]
  | .ldn3 => [0x03]
  | .ldn4 => [0x04]
  | .ldn5 => [0x05]
  | .ldn6 => [0x06]
  | .ldn7 => [0x07]
  | .ldn8 => [0x08]
  | .ldn9 => [0x09]
  | .ldn10 => [0x0A]
  | .ldn11 => [0x0B]
  | .ldn12 => [0x0C]
  | .ldn13 => [0x0D]
  | .ldn14 => [0x0E]
  | .ldn15 => [0x0F]
  | .inc n => [opN 0x1 n]
  | .dec n => [opN 0x2 n]
  | .lda n => [opN 0x4 n]
  | .str n => [opN 0x5 n]
  | .glo n => [opN 0x8 n]
  | .ghi n => [opN 0x9 n]
  | .plo n => [opN 0xA n]
  | .phi n => [opN 0xB n]
  | .sep n => [opN 0xD n]
  | .sex n => [opN 0xE n]
  | .br a => [0x30, a]
  | .bq a => [0x31, a]
  | .bz a => [0x32, a]
  | .bdf a => [0x33, a]
  | .b1 a => [0x34, a]
  | .b2 a => [0x35, a]
  | .b3 a => [0x36, a]
  | .b4 a => [0x37, a]
  | .skp x => [0x38, x]
  | .bnq a => [0x39, a]
  | .bnz a => [0x3A, a]
  | .bnf a => [0x3B, a]
  | .bn1 a => [0x3C, a]
  | .bn2 a => [0x3D, a]
  | .bn3 a => [0x3E, a]
  | .bn4 a => [0x3F, a]
  | .irx => [0x60]
  | .out1 => [0x61]
  | .out2 => [0x62]
  | .out3 => [0x63]
  | .out4 => [0x64]
  | .out5 => [0x65]
  | .out6 => [0x66]
  | .out7 => [0x67]
  | .inp0 => [0x68]
  | .inp1 => [0x69]
  | .inp2 => [0x6A]
  | .inp3 => [0x6B]
  | .inp4 => [0x6C]
  | .inp5 => [0x6D]
  | .inp6 => [0x6E]
  | .inp7 => [0x6F]
  | .ret => [0x70]
  | .dis => [0x71]
  | .ldxa => [0x72]
  | .stxd => [0x73]
  | .adc => [0x74]
  | .sdb => [0x75]
  | .shrc => [0x76]
  | .smb => [0x77]
  | .sav => [0x78]
  | .mark => [0x79]
  | .req => [0x7A]
  | .seq => [0x7B]
  | .adci k => [0x7C, k]
  | .sdbi k => [0x7D, k]
  | .shlc => [0x7E]
  | .smbi k => [0x7F, k]
  | .lbr hl => [0xC0, targetHigh hl, targetLow hl]
  | .lbq hl => [0xC1, targetHigh hl, targetLow hl]
  | .lbz hl => [0xC2, targetHigh hl, targetLow hl]
  | .lbdf hl => [0xC3, targetHigh hl, targetLow hl]
  | .nop => [0xC4]
  | .lsnq => [0xC5]
  | .lsnz => [0xC6]
  | .lsnf => [0xC7]
  | .lskp => [0xC8]
  | .lbnq hl => [0xC9, targetHigh hl, targetLow hl]
  | .lbnz hl => [0xCA, targetHigh hl, targetLow hl]
  | .lbnf hl => [0xCB, targetHigh hl, targetLow hl]
  | .lsie => [0xCC]
  | .lsq => [0xCD]
  | .lsz => [0xCE]
  | .lsdf => [0xCF]
  | .ldx => [0xF0]
  | .or => [0xF1]
  | .and => [0xF2]
  | .xor => [0xF3]
  | .add => [0xF4]
  | .sd => [0xF5]
  | .shr => [0xF6]
  | .sm => [0xF7]
  | .ldi k => [0xF8, k]
  | .ori k => [0xF9, k]
  | .ani k => [0xFA, k]
  | .xri k => [0xFB, k]
  | .adi k => [0xFC, k]
  | .sdi k => [0xFD, k]
  | .shl => [0xFE]
  | .smi k => [0xFF, k]

end Sys2Proof
end

