-- ==== Sys2Proof/Config.lean ====
section
/-! DEFINITION. The parameters of 00 R9 that are not state: those the spec decides (a definition with the spec's
value, 92 D3, D4, D11, D13) and those it leaves OPEN (an opaque constant, so that a claim holds whatever the value).
The platform parameters `P_MEMORY_MAP`, `P_PORT_MAP` and `P_INHIBIT_RELEASE` are data of the state instead
(Machine/State.lean), since the spec gives them as tables. -/

namespace Sys2Proof

/-- The two values of `P_DF_CORNER` (43 R193, 92 D2). -/
inductive DfCorner where
  | trueCarry
  | wrapped
deriving DecidableEq, Repr, Inhabited

/-- The two values of `P_OP68` (45 R282, 92 D3). -/
inductive Op68 where
  | input0
  | nop
deriving DecidableEq, Repr, Inhabited

/-- The two values of `P_RESET_SCOPE` (10 R56, 92 D11). -/
inductive ResetScope where
  | allZero
  | listedOnly
deriving DecidableEq, Repr, Inhabited

/-- The direction of a port access, or of a DMA transfer seen from memory (20 R78, 10 R47). -/
inductive Dir where
  | input
  | output
deriving DecidableEq, Repr, Inhabited

/-- `P_DF_CORNER`: OPEN (43 R193). A free constant, log 9. -/
opaque Config.dfCorner : DfCorner

/-- `P_OP68 = Input0`, the spec's setting (92 D3). -/
def Config.op68 : Op68 := .input0

/-- `P_IDL_ADVANCES = true`, the spec's setting (92 D4). -/
def Config.idlAdvances : Bool := true

/-- `P_RESET_SCOPE = AllZero`, the spec's setting (92 D11). -/
def Config.resetScope : ResetScope := .allZero

/-- `P_VIDEO_EF = 0`, the spec's setting (92 D13). -/
def Config.videoEf : Fin 4 := 0

/-- `PULSES_PER_MC` (00 R9). -/
def Config.pulsesPerCycle : Nat := 8

/-- `MAX_DELTA`, in seconds (00 R9). -/
def Config.maxDelta : Rat := 1 / 4

/-- The clock's hardware maximum (70 R386). -/
def Config.maxHz : Frequency := ⟨6400000, by decide⟩

/-- `LINE_CYCLES` (00 R9). -/
def Config.lineCycles : Nat := 14

/-- `FRAME_LINES` (00 R9). -/
def Config.frameLines : Nat := 262

/-- `DISPLAY_BYTES` (00 R9). -/
def Config.displayBytes : Nat := 1024

/-- `DMA_BURST` (00 R9). -/
def Config.dmaBurst : Nat := 8

/-- `P_1863_DEFAULT_RATE` (00 R9, 92 D26). -/
def Config.defaultRate : Nat := 54

/-- A byte the host supplies when the state's tape of supplied bytes is used up: `any value` per draw
(40 R134, 45 R283, 93 items 11 and 12). Log 12. -/
opaque Config.freeByte : Nat → Byte

/-- `vc_ctx`, the opaque context of the video controller's requests (60 R325). Log 17. -/
opaque Config.videoCtx : Nat

/-- Values an R register, P or X may hold at construction under `ListedOnly` (10 R56): `any value`. Log 10. -/
opaque Config.powerOnWord : Nat → Word

/-- As `Config.powerOnWord`, for D, B and T (10 R56). -/
opaque Config.powerOnByte : Nat → Byte

/-- As `Config.powerOnWord`, for DF (10 R56). -/
opaque Config.powerOnDf : Bool

/-- `P_VP590`, polarity: whether address bit 0x1000 set selects the High resolution (60 R333). OPEN, log 13. -/
opaque Config.vp590BitSetIsHigh : Bool

/-- `P_VP590`, colour-memory addressing: the colour byte that a write to an address stores into, if any (60 R333).
OPEN, log 13. -/
opaque Config.vp590ColourIndex : Word → Option (Fin 128)

/-- `P_VP590`, the background port: its direction, and k for port k + 1, since devices are on ports 1 to 7 (60 R334,
20 R78). OPEN, log 13. -/
opaque Config.vp590BackgroundIndex : Dir × Fin 7

/-- The VP590's background port, one of 1 to 7: port 0 reaches no device of the board (60 R351, 45 R282). -/
def Config.vp590BackgroundPort : Dir × Port :=
  (Config.vp590BackgroundIndex.1, BitVec.ofNat 3 (Config.vp590BackgroundIndex.2 + 1))

/-- `P_VP590`, the byte an input from the background port returns, should it be an input (60 R351). OPEN, log 13. -/
opaque Config.vp590BackgroundByte : Byte

/-- `P_VP590`, the colour-enabled bit at installation (60 R332). OPEN, log 13. -/
opaque Config.vp590InitEnabled : Bool

/-- `P_VP590`, the resolution at installation, true for High (60 R332). OPEN, log 13. -/
opaque Config.vp590InitHigh : Bool

/-- `P_VP590`, the background colour at installation (60 R332). OPEN, log 13. -/
opaque Config.vp590InitBackground : BitVec 2

/-- `P_VP590`, the colour memory at installation (60 R332). OPEN, log 13. -/
opaque Config.vp590InitColour : Nat → Byte

/-- `P_1863_INPUT_HZ` (60 R342). OPEN, log 14. -/
opaque Config.dividerInputHz : Rat

/-- `P_1863_PREDIVIDE` (60 R342). OPEN, log 14. -/
opaque Config.dividerPredivide : Rat

/-- The amplitude of the CDP1863 sample (60 R343, 92 D27). OPEN, log 14. -/
opaque Config.dividerAmplitude : Rat

/-- Whether the CDP1863 sounds, given its enable flag and the Q last reported outside the core, if any (60 R343, 92 D27,
45 R295). OPEN, log 14. -/
opaque Config.dividerSounds : Bool → Option Bool → Bool

/-- The sample of a CDP1863 that does not sound (60 R343, 92 D27). OPEN, log 14. -/
opaque Config.dividerSilence : Rat

end Sys2Proof
end

