-- ==== Sys2Proof/Machine/Flags.lean ====
section
/-! DEFINITION. The 8-bit results and DF of the ALU (43 R190 to R194, R213 to R216). Each answers the new D and the new
DF. The corner parameter is an argument, so that both of its values can be stated and tested. -/

namespace Sys2Proof.Machine

/-- `DfCornerAdd` (43 R193). -/
def dfCornerAdd : DfCorner → Bool
  | .trueCarry => true
  | .wrapped => false

/-- `DfCornerSub` (43 R193). -/
def dfCornerSub : DfCorner → Bool
  | .trueCarry => false
  | .wrapped => true

/-- `AddOp(a, b, cin)` (43 R191). -/
def addOp (c : DfCorner) (a b : Byte) (cin : Bool) : Byte × Bool :=
  let r : Byte := BitVec.ofNat 8 (a.toNat + b.toNat + cin.toNat)
  (r, if b.toNat + cin.toNat ≤ 255 then decide (r < a) else dfCornerAdd c)

/-- `SubOp(m, s, bin)`: the minuend less the subtrahend less the borrow, modulo 256 (43 R192). -/
def subOp (c : DfCorner) (m s : Byte) (bin : Bool) : Byte × Bool :=
  let r : Byte := BitVec.ofInt 8 ((m.toNat : Int) - s.toNat - bin.toNat)
  (r, if s.toNat + bin.toNat ≤ 255 then !decide (m < r) else dfCornerSub c)

/-- SHR, and SHRC with `c` shifted in: right by one, DF is the bit shifted out (43 R213, R214). -/
def shiftRight (d : Byte) (c : Bool) : Byte × Bool :=
  (BitVec.ofBool c ++ d.extractLsb' 1 7, d.getLsbD 0)

/-- SHL, and SHLC with `c` shifted in: left by one, DF is the bit shifted out (43 R215, R216). -/
def shiftLeft (d : Byte) (c : Bool) : Byte × Bool :=
  (d.extractLsb' 0 7 ++ BitVec.ofBool c, d.getLsbD 7)

end Sys2Proof.Machine
end

