-- ==== Sys2Proof/Machine/Bits.lean ====
section
/-! DEFINITION. Halves of a register and of T (00 R10, R11; 10 R38). -/

namespace Sys2Proof.Machine

/-- `v[7:0]`, written `R.0` for a register (00 R11). -/
def lowByte (v : Word) : Byte := v.extractLsb' 0 8

/-- `v[15:8]`, written `R.1` for a register (00 R11). -/
def highByte (v : Word) : Byte := v.extractLsb' 8 8

/-- `v` with its low byte replaced (00 R11, `R.0 <- b`). -/
def withLow (v : Word) (b : Byte) : Word := highByte v ++ b

/-- `v` with its high byte replaced (00 R11, `R.1 <- b`). -/
def withHigh (v : Word) (b : Byte) : Word := b ++ lowByte v

/-- `v[7:4]` of a byte (00 R10). -/
def highNibble (v : Byte) : Nibble := v.extractLsb' 4 4

/-- `v[3:0]` of a byte (00 R10). -/
def lowNibble (v : Byte) : Nibble := v.extractLsb' 0 4

/-- `(x << 4) | p`, the byte that holds X and P (60 R305, 45 R292), and the opcode that I and N hold (10 R37). -/
def packNibbles (x p : Nibble) : Byte := x ++ p

/-- A register number of the syntax as the 4-bit field that encodes it (30 R102 (a)). -/
def regNo (n : Nat) : Nibble := BitVec.ofNat 4 n

end Sys2Proof.Machine
end

