-- ==== Sys2Proof/Machine/State.lean ====
section
/-! DEFINITION. The state of the machine as plain data (spec/10_state.md), the reasons a step can stop, and the state
after reset. The state has six parts: the CPU registers, the cycle stepper, the control mode and time, the video
controller, the platform, and the host's side (`Env`), which is the model's own. -/

namespace Sys2Proof.Machine

/-- Why the machine stops with a fault. There is no constructor: no instruction, fetch, memory access, port access or
DMA cycle raises anything, and no machine cycle faults (60 R300, 40 R139). -/
inductive Fault where
deriving DecidableEq, Repr

/-- Why the model refuses a step. -/
inductive Refusal where
  /-- The instruction has no meaning yet. Raised only by an arm of `exec`; no arm raises it. Safe. -/
  | notModelled (mnemonic : String)
deriving DecidableEq, Repr

/-! ## The CPU -/

/-- The CPU register file (10 R30 to R42). -/
structure Cpu where
  /-- R[0..15] (10 R30). -/
  r : Vector Word 16
  /-- P, which register is the program counter (10 R31). -/
  p : Nibble
  /-- X, which register is the data pointer (10 R32). -/
  x : Nibble
  /-- D, the accumulator (10 R34). -/
  d : Byte
  /-- DF, carry or no borrow (10 R35). -/
  df : Bool
  /-- B, which nothing reads (10 R36). -/
  b : Byte
  /-- I, the opcode's high nibble (10 R37). -/
  i : Nibble
  /-- N, the opcode's low nibble (10 R37). -/
  n : Nibble
  /-- T, the interrupt-save register (10 R38). -/
  t : Byte
  /-- IE, interrupt enable (10 R39). -/
  ie : Bool
  /-- Q, the output flip-flop (10 R40). -/
  q : Bool
  /-- EF[0..3], true when asserted (10 R41). -/
  ef : Vector Bool 4
deriving DecidableEq, Repr

/-! ## The cycle stepper -/

/-- The cycle state (10 R43). -/
inductive CycleState where
  | fetch
  | execute
  | dma
  | interrupt
deriving DecidableEq, Repr

/-- The transfer callback of a DMA request (10 R47): none, the host's, or the video controller's `DmaOutByte`. -/
inductive Callback where
  | null
  | host
  | video
deriving DecidableEq, Repr

/-- A DMA request `(count, ctx, cb)` (10 R47); the context is an opaque value handed back to the callback. -/
structure DmaRequest where
  count : Nat
  ctx : Nat
  cb : Callback
deriving DecidableEq, Repr

/-- One queued byte transfer of an accepted request (10 R48). `Dir.input` writes memory. -/
structure Descriptor where
  dir : Dir
  ctx : Nat
  cb : Callback
deriving DecidableEq, Repr

/-- The cycle-stepper state (10 R43, R44, R47 to R49). -/
structure Stepper where
  cycle : CycleState
  /-- Execute machine cycles the current instruction still needs (10 R44). -/
  execLeft : Nat
  idle : Bool
  /-- True until the `Exec` action of the current instruction has run (10 R44). -/
  first : Bool
  slotIn : Option DmaRequest
  slotOut : Option DmaRequest
  queue : List Descriptor
  intPending : Bool
  /-- IE at the moment the pending request was latched (10 R49). -/
  intIe : Bool
deriving DecidableEq, Repr

/-! ## Control mode and time -/

/-- The control mode (10 R45). -/
inductive ControlMode where
  | load
  | reset
  | pause
  | run
deriving DecidableEq, Repr

/-- Control mode and timing state (10 R45, R46), in exact seconds (log 11). -/
structure Clock where
  mode : ControlMode
  /-- The internal cycle accumulator. -/
  acc : Rat
  /-- The instant of the previous `step` call or Run transition. -/
  lastTime : Rat
  /-- Clock pulses since the last machine-cycle boundary, 0..7. -/
  pulsePhase : Nat
  /-- CLOCK_HZ (00 R9), positive by its type (92 D21), which the host may change between calls (92 D35). -/
  hz : Frequency
deriving DecidableEq, Repr

/-! ## The video controller -/

/-- The CDP1861 (10 R50). -/
structure Video where
  display : Bool
  /-- `vc_cycle`, 0..13. -/
  cycle : Nat
  /-- `vc_line`, 0..261. -/
  line : Nat
  /-- `vc_cursor`, 0..1023. -/
  cursor : Nat
deriving DecidableEq, Repr

/-! ## The platform -/

/-- A custom write hook of a region (20 R71, R76). The VP590's is the only one the spec describes (60 R333). -/
inductive Hook where
  | vp590
deriving DecidableEq, Repr

/-- A memory-map region (20 R71). `buf` names its buffer, `size` is that buffer's size in bytes. -/
structure Region where
  start : Word
  stop : Word
  buf : Nat
  size : Nat
  canRead : Bool
  canWrite : Bool
  hook : Option Hook
deriving DecidableEq, Repr

/-- A ROM image: its buffer and size (20 R84, R85). -/
structure Rom where
  buf : Nat
  size : Nat
deriving DecidableEq, Repr

/-- The contents of the region buffers: byte `off` of buffer `buf` stands at key `buf * 65536 + off`, so that a buffer
two regions share is stored once. Keys rise strictly and no entry equals what an unlisted key reads as. -/
abbrev Memory := List Host.Cell

/-- What a byte of a buffer that nothing has written reads as (DESIGN CHOICE, unsafe, log 4). -/
def Memory.unlisted : Byte := 0

/-- The canonical form of `Memory`. -/
abbrev Memory.wf (m : Memory) : Prop :=
  m.Pairwise (fun c c' => c.1 < c'.1) ∧ ∀ c ∈ m, c.2 ≠ Memory.unlisted

/-- The VP590's registers (60 R332). -/
structure Vp590 where
  colourEnabled : Bool
  /-- The resolution mode, true for High. -/
  high : Bool
  background : BitVec 2
  colour : Vector Byte 128
deriving DecidableEq, Repr

/-- The installed expansion board (10 R52, 60 R352). The VP590 carries its registers, so they exist only with it. -/
inductive Board where
  | none
  | vp585
  | vp590 (v : Vp590)
  | vp595
deriving DecidableEq, Repr

/-- What an output port reaches (60 R351). `P_PORT_MAP` is OPEN (92 D18); that a port map chooses among these devices, so
that an output can turn the display off and not on, is DESIGN CHOICE, log 6. -/
inductive OutDevice where
  /-- No device: the output is ignored. -/
  | ignored
  /-- `SetDisplay(false)`. -/
  | displayOff
  /-- The key latch. -/
  | keyLatch
  /-- The CDP1863 rate, when the VP595 is installed. -/
  | divider
  /-- A device of the host's, reached through its callback. -/
  | external
deriving DecidableEq, Repr

/-- What an input port reaches (60 R351). That a port map chooses among these devices, so that an input can turn the display
on and not off, is DESIGN CHOICE, log 6. -/
inductive InDevice where
  /-- No device: the byte is 0x00. -/
  | nothing
  /-- `SetDisplay(true)`, and the byte is 0x00. -/
  | displayOn
  /-- A device of the host's, which supplies the byte. -/
  | external
deriving DecidableEq, Repr

/-- The kinds of access that may release the address-inhibit latch (`P_INHIBIT_RELEASE` is OPEN; log 7). -/
inductive AccessKind where
  | memRead
  | memWrite
  | portOut
  | portIn
deriving DecidableEq, Repr

/-- A release event of `P_INHIBIT_RELEASE`: an access of this kind whose address or port number lies in lo..hi. -/
structure Trigger where
  kind : AccessKind
  lo : Nat
  hi : Nat
deriving DecidableEq, Repr

/-- Which callbacks are attached (00 R14, R8). -/
structure Attached where
  qOut : Bool
  /-- The video controller is installed as the `sync_tick` callback. -/
  sync : Bool
  portOut : Bool
  portIn : Bool
  pixel : Bool
  clearFrame : Bool
  present : Bool
deriving DecidableEq, Repr

/-- The platform parameters that are tables: `P_PORT_MAP` (60 R351), the EF line the keypad drives (60 R350),
`P_INHIBIT_RELEASE` (20 R85) and the callback set (00 R8). No machine cycle changes them. -/
structure Wiring where
  out : Vector OutDevice 8
  inp : Vector InDevice 8
  keypadEf : Option (Fin 4)
  release : List Trigger
  attached : Attached
deriving DecidableEq, Repr

/-- The machine assembly (10 R51, R52). -/
structure Platform where
  regions : List Region
  /-- The ROM image that shadows region 0 while the latch is set; none for a map without a shadow (70 R393). -/
  rom : Option Rom
  mem : Memory
  /-- The address-inhibit latch (20 R85). -/
  latch : Bool
  keyLatch : Nibble
  /-- The keys the host holds down, bit k for key k (60 R350). -/
  keys : BitVec 16
  board : Board
  divideRate : Nat
  /-- `current_period` of the CDP1863's audio path (60 R343). -/
  audioPhase : Rat
  /-- The CDP1863's enable flag (10 R51). -/
  audioEnable : Bool
  wiring : Wiring
deriving DecidableEq, Repr

/-! ## The host's side (the model's own state, log 2) -/

/-- A request to the CPU (40 R132, 60 R303). -/
inductive Request where
  | dma (dir : Dir) (req : DmaRequest)
  | interrupt
deriving DecidableEq, Repr

/-- The boards the host can install (60 R352). -/
inductive BoardKind where
  | none
  | vp585
  | vp590
  | vp595
deriving DecidableEq, Repr

/-- What the host does between two machine cycles (00 R7, 70 R390). -/
inductive HostEvent where
  /-- `set_control_mode(mode, now)` (70 R380). -/
  | setControlMode (mode : ControlMode) (now : Rat)
  /-- `issue_dma_in`, `issue_dma_out` or `issue_interrupt` (40 R132, 60 R303). -/
  | request (r : Request)
  /-- The host writes an EF bit (10 R41). -/
  | setEf (k : Fin 4) (v : Bool)
  /-- The keys held down change (60 R350). -/
  | setKeys (down : BitVec 16)
  /-- The host loads a byte into a buffer (70 R385). -/
  | loadByte (buf : Nat) (off : Word) (v : Byte)
  /-- The host loads a ROM image, repointing regions 0 and 1 (20 R84). -/
  | loadRom (rom : Rom)
  /-- The host swaps the expansion board (60 R352). -/
  | swapBoard (b : BoardKind)
  /-- The machine assembly resets the address-inhibit latch (20 R72). -/
  | releaseLatch
  /-- The host changes CLOCK_HZ (70 R394). -/
  | setClock (f : Frequency)
deriving DecidableEq, Repr

/-- A call the core makes to one of the host's callbacks (00 R14). -/
inductive Output where
  /-- `q_output_changed(q)` (40 R123). -/
  | q (v : Bool)
  /-- `port_output(n, b)` (45 R281). -/
  | portOut (n : Port) (b : Byte)
  /-- `port_input(n)` (45 R283). -/
  | portIn (n : Port)
  /-- The host's inbound transfer callback (40 R134). -/
  | dmaIn (ctx : Nat)
  /-- The host's outbound transfer callback (40 R135). -/
  | dmaOut (ctx : Nat) (b : Byte)
  /-- `video_byte_ready(value, scanline, offset, context)` (60 R327). The scanline is an integer: DESIGN CHOICE, log 22. -/
  | pixel (b : Byte) (scanline : Int) (offset : Nat) (ctx : Nat)
  /-- The clear-frame callback (60 R328). -/
  | clearFrame
  /-- The frame-present callback (60 R326). -/
  | present
deriving DecidableEq, Repr

/-- The host as data: what it will do and supply, and what it has been told. -/
structure Env where
  /-- What the host does before each coming machine cycle, the next one first; nothing once it is used up. -/
  script : List (List HostEvent)
  /-- The requests the host's callbacks issue, the next call's first; none once it is used up. -/
  reactions : List (List Request)
  /-- The bytes the host supplies to DMA-in transfers and external input ports, the next one first. -/
  tape : List Byte
  /-- How many free bytes have been drawn since the tape was used up. -/
  draws : Nat
  /-- The callback calls so far, newest first. -/
  out : List Output
deriving DecidableEq, Repr

/-- The whole machine. -/
structure State where
  cpu : Cpu
  stepper : Stepper
  clock : Clock
  video : Video
  plat : Platform
  env : Env
deriving DecidableEq, Repr

/-- What a meaning answers. -/
abbrev Result := Host.Outcome State Fault Refusal

/-! ## After reset -/

/-- The CPU after the Reset transition (10 R55). -/
def Cpu.reset : Cpu where
  r := .replicate 16 0
  p := 0
  x := 0
  d := 0
  df := false
  b := 0
  i := 0
  n := 0
  t := 0
  ie := true
  q := false
  ef := .replicate 4 false

/-- The stepper after the Reset transition (10 R55). -/
def Stepper.reset : Stepper where
  cycle := .fetch
  execLeft := 0
  idle := false
  first := false
  slotIn := none
  slotOut := none
  queue := []
  intPending := false
  intIe := false

/-- Control mode and time at construction (10 R55; `lastTime` and `hz` are DESIGN CHOICE, log 11). -/
def Clock.reset : Clock where
  mode := .reset
  acc := 0
  lastTime := 0
  pulsePhase := 0
  hz := ⟨1760900, by decide⟩

/-- The video controller at construction (10 R55). -/
def Video.reset : Video where
  display := false
  cycle := 0
  line := 0
  cursor := 0

/-- The VIP default wiring (60 R350, R351; 92 D18, D19): DESIGN CHOICE, log 6 and log 7. -/
def Wiring.vip : Wiring where
  out := #v[.ignored, .displayOff, .keyLatch, .divider, .ignored, .ignored, .ignored, .ignored]
  inp := #v[.nothing, .displayOn, .nothing, .nothing, .nothing, .nothing, .nothing, .nothing]
  keypadEf := some 2
  release := [⟨.memRead, 0x8000, 0xFFFF⟩, ⟨.memWrite, 0x8000, 0xFFFF⟩]
  attached := ⟨true, true, true, true, true, true, true⟩

/-- The VIP default memory map of 92 D17, with 4 KiB of RAM (DESIGN CHOICE, log 5): RAM is buffer 0, the 512-byte
monitor ROM is buffer 1. -/
def Platform.vipMap : List Region :=
  [⟨0x0000, 0x0FFF, 0, 0x1000, true, true, none⟩, ⟨0x8000, 0x81FF, 1, 0x200, true, false, none⟩]

/-- The platform at construction (10 R55; the choices are those of log 4 to log 8, log 14 to log 16). -/
def Platform.reset : Platform where
  regions := Platform.vipMap
  rom := some ⟨1, 0x200⟩
  mem := []
  latch := true
  keyLatch := 0
  keys := 0
  board := .none
  divideRate := Config.defaultRate
  audioPhase := 0
  audioEnable := false
  wiring := Wiring.vip

/-- The host's side at construction: nothing scripted, nothing supplied, nothing called (log 2). -/
def Env.reset : Env where
  script := []
  reactions := []
  tape := []
  draws := 0
  out := []

/-- The machine right after reset: a core as constructed, in control mode Reset (70 R386, 10 R55). -/
def State.reset : State where
  cpu := Cpu.reset
  stepper := Stepper.reset
  clock := Clock.reset
  video := Video.reset
  plat := Platform.reset
  env := Env.reset

end Sys2Proof.Machine
end

