-- ==== Sys2Proof/Machine/Ops.lean ====
section
/-! DEFINITION. The named operations of the machine: registers, memory, the address-inhibit latch, the calls to the
host, DMA and interrupt requests, and interrupt entry and return. -/

namespace Sys2Proof.Machine

/-! ## Registers -/

/-- `R[n]` (10 R30). -/
def State.reg (s : State) (n : Nibble) : Word := s.cpu.r[n.toNat]'n.isLt

/-- `R[n] <- v` (10 R30). -/
def State.setReg (s : State) (n : Nibble) (v : Word) : State :=
  { s with cpu := { s.cpu with r := s.cpu.r.set n.toNat v n.isLt } }

/-- `R[P]`, the program counter (10 R33). -/
def State.pc (s : State) : Word := s.reg s.cpu.p

/-- `R[P] <- v`, with P as it stands (00 R11). -/
def State.setPc (s : State) (v : Word) : State := s.setReg s.cpu.p v

/-- `P <- v` (10 R31). -/
def State.setP (s : State) (v : Nibble) : State := { s with cpu := { s.cpu with p := v } }

/-- `X <- v` (10 R32). -/
def State.setX (s : State) (v : Nibble) : State := { s with cpu := { s.cpu with x := v } }

/-- `D <- v` (10 R34). -/
def State.setD (s : State) (v : Byte) : State := { s with cpu := { s.cpu with d := v } }

/-- `DF <- v` (10 R35). -/
def State.setDf (s : State) (v : Bool) : State := { s with cpu := { s.cpu with df := v } }

/-- `T <- v` (10 R38). -/
def State.setT (s : State) (v : Byte) : State := { s with cpu := { s.cpu with t := v } }

/-- `IE <- v` (10 R39). -/
def State.setIe (s : State) (v : Bool) : State := { s with cpu := { s.cpu with ie := v } }

/-- `Q <- v` (10 R40). -/
def State.setQ (s : State) (v : Bool) : State := { s with cpu := { s.cpu with q := v } }

/-- `EF[k] <- v` (10 R41). -/
def State.setEf (s : State) (k : Fin 4) (v : Bool) : State :=
  { s with cpu := { s.cpu with ef := s.cpu.ef.set k v } }

/-- `EF[k]` (10 R41). -/
def State.efBit (s : State) (k : Fin 4) : Bool := s.cpu.ef[k]

/-! ## The contents of the region buffers -/

/-- The byte at a key. -/
def Memory.read : Memory → Nat → Byte
  | [], _ => Memory.unlisted
  | (a, w) :: rest, k => if a = k then w else Memory.read rest k

/-- Stores a byte at a key, keeping the canonical form. -/
def Memory.write : Memory → Nat → Byte → Memory
  | [], k, v => if v = Memory.unlisted then [] else [(k, v)]
  | (a, w) :: rest, k, v =>
    if k < a then (if v = Memory.unlisted then (a, w) :: rest else (k, v) :: (a, w) :: rest)
    else if k = a then (if v = Memory.unlisted then rest else (k, v) :: rest)
    else (a, w) :: Memory.write rest k v

/-- The key of byte `off` of buffer `buf` (20 R71). -/
def cellKey (buf off : Nat) : Nat := buf * 65536 + off

/-! ## The memory map -/

/-- The region covers start..end inclusive (20 R71). -/
def Region.covers (r : Region) (a : Word) : Bool := r.start ≤ a && a ≤ r.stop

/-- The offset of an address in a region that covers it (20 R74). -/
def Region.offset (r : Region) (a : Word) : Nat := a.toNat - r.start.toNat

/-- Region 0 as the set address-inhibit latch shows it: read-only, its buffer the ROM image (20 R85). -/
def Region.shadowed (r : Region) (m : Rom) : Region :=
  { r with buf := m.buf, size := m.size, canRead := true, canWrite := false }

/-- The region list as accesses see it: with the latch set, region 0 is the ROM shadow (20 R84, R85). -/
def Platform.map (q : Platform) : List Region :=
  match q.regions, q.latch, q.rom with
  | r :: rest, true, some m => r.shadowed m :: rest
  | rs, _, _ => rs

/-- `Select(addr)`: the first region of the list that covers the address (20 R73). -/
def State.select (s : State) (a : Word) : Option Region := s.plat.map.find? (·.covers a)

/-- The key of the byte a region holds at an address, if its access bit allows the access and the offset is below its
size (20 R74, R75). -/
def Region.cell (r : Region) (allowed : Bool) (a : Word) : Option Nat :=
  if allowed && decide (r.offset a < r.size) then some (cellKey r.buf (r.offset a)) else none

/-- The key of the byte a read of the address returns, if any (20 R74). -/
def State.readCell (s : State) (a : Word) : Option Nat :=
  match s.select a with
  | some r => r.cell r.canRead a
  | none => none

/-- The key of the byte a write to the address changes, if any (20 R75). -/
def State.writeCell (s : State) (a : Word) : Option Nat :=
  match s.select a with
  | some r => r.cell r.canWrite a
  | none => none

/-- The byte `MemRead(a, 1)` returns (20 R74). -/
def State.memRead (s : State) (a : Word) : Byte :=
  match s.readCell a with
  | some k => s.plat.mem.read k
  | none => 0

/-! ## The address-inhibit latch -/

/-- The access is a release event of `P_INHIBIT_RELEASE` (20 R85). -/
def Wiring.releases (w : Wiring) (kind : AccessKind) (a : Nat) : Bool :=
  w.release.any fun t => decide (t.kind = kind) && decide (t.lo ≤ a) && decide (a ≤ t.hi)

/-- What an access does to the address-inhibit latch, once it is done (20 R85, 92 D35). Which accesses release it, and that
a port access without a callback counts as one, is DESIGN CHOICE, log 7. -/
def State.touch (s : State) (kind : AccessKind) (a : Nat) : State :=
  { s with plat := { s.plat with latch := s.plat.latch && !s.plat.wiring.releases kind a } }

/-- The state after `MemRead(a, 1)`: a read changes nothing, but for an access that releases the latch (20 R74). -/
def State.afterRead (s : State) (a : Word) : State := s.touch .memRead a.toNat

/-! ## Memory writes -/

/-- The buffer store of a write (20 R75). -/
def State.store (s : State) (a : Word) (v : Byte) : State :=
  match s.writeCell a with
  | some k => { s with plat := { s.plat with mem := s.plat.mem.write k v } }
  | none => s

/-- The VP590's registers after a write of `v` to `a` in its range (60 R333; the OPEN points are log 13). -/
def Vp590.written (b : Vp590) (a : Word) (v : Byte) : Vp590 :=
  { b with
    colourEnabled := true
    high := (decide (a &&& 0x1000 ≠ 0)) == Config.vp590BitSetIsHigh
    colour := match Config.vp590ColourIndex a with
      | some k => b.colour.set k v
      | none => b.colour }

/-- Runs a region's write hook (20 R76, 60 R333). Without the VP590 its hook has nothing to write. -/
def State.runHook (s : State) (h : Option Hook) (a : Word) (v : Byte) : State :=
  match h, s.plat.board with
  | some .vp590, .vp590 b => { s with plat := { s.plat with board := .vp590 (b.written a v) } }
  | _, _ => s

/-- `MemWrite(a, 1, v)`: the store, then the hook of the selected region, even without the write bit (20 R75, R76). -/
def State.memWrite (s : State) (a : Word) (v : Byte) : State :=
  ((s.store a v).runHook ((s.select a).bind Region.hook) a v).touch .memWrite a.toNat

/-! ## Requests to the CPU -/

/-- The slot of a direction (10 R47). -/
def Stepper.slot (t : Stepper) : Dir → Option DmaRequest
  | .input => t.slotIn
  | .output => t.slotOut

/-- Writes the slot of a direction (10 R47). -/
def Stepper.setSlot (t : Stepper) : Dir → Option DmaRequest → Stepper
  | .input, r => { t with slotIn := r }
  | .output, r => { t with slotOut := r }

/-- `issue_dma_in` and `issue_dma_out`: dropped when the count is 0 or the slot is occupied (40 R132). -/
def State.issueDma (s : State) (d : Dir) (r : DmaRequest) : State :=
  if r.count = 0 then s
  else match s.stepper.slot d with
    | some _ => s
    | none => { s with stepper := s.stepper.setSlot d (some r) }

/-- `issue_interrupt()`: dropped while one is pending; the latch records IE (60 R303). -/
def State.issueInterrupt (s : State) : State :=
  if s.stepper.intPending then s
  else { s with stepper := { s.stepper with intPending := true, intIe := s.cpu.ie } }

/-- Issues a request. -/
def State.request (s : State) : Request → State
  | .dma d r => s.issueDma d r
  | .interrupt => s.issueInterrupt

/-! ## Calls to the host -/

/-- Records a call to a callback, which is skipped when none is attached (00 R14). -/
def State.emit (s : State) (attached : Bool) (o : Output) : State :=
  if attached then { s with env := { s.env with out := o :: s.env.out } } else s

/-- The requests a callback of the host issues while the core calls it (40 R132, 45 R285; log 2). -/
def State.react (s : State) : State :=
  match s.env.reactions with
  | [] => s
  | rs :: rest => rs.foldl State.request { s with env := { s.env with reactions := rest } }

/-- A byte the host supplies: the next one of the tape, or a free byte when the tape is used up (40 R134, 45 R283,
log 12). -/
def State.supply (s : State) : Byte × State :=
  match s.env.tape with
  | b :: rest => (b, { s with env := { s.env with tape := rest } })
  | [] => (Config.freeByte s.env.draws, { s with env := { s.env with draws := s.env.draws + 1 } })

/-! ## Interrupt entry and return -/

/-- `InterruptDecision()`: the request is consumed, and taken if IE was set when it was latched (60 R304). -/
def State.interruptDecision (s : State) : State :=
  { s with stepper :=
    { s.stepper with intPending := false, cycle := if s.stepper.intIe then .interrupt else .fetch } }

/-- Interrupt entry, the action of the Interrupt cycle: T saves X and P, X becomes 2, P becomes 1, IE is cleared, and the
next cycle fetches at R[1] (60 R305, R307). -/
def State.interruptEntry (s : State) : State :=
  let s1 := (((s.setT (packNibbles s.cpu.x s.cpu.p)).setX 2).setP 1).setIe false
  { s1 with stepper := { s1.stepper with cycle := .fetch } }

/-- The return of RET and DIS: X and P from the byte at R[X], which is passed, and IE as given (45 R287, R288; 60 R308). -/
def State.returnFrom (s : State) (ie : Bool) : State :=
  let a := s.reg s.cpu.x
  let b := s.memRead a
  (((((s.afterRead a).setReg s.cpu.x (inc16 a)).setX (highNibble b)).setP (lowNibble b))).setIe ie

end Sys2Proof.Machine
end

