-- ==== Sys2Proof/Machine/Operands.lean ====
section
/-! DEFINITION. The operand forms (30 R102, 43 R190, 44 R230, R250, R251). An operand byte that follows the opcode is a
field of the instruction: the execute cycle reads it at R[P] (Machine/Cycle.lean, `operandInstr`) and the meaning
accounts for that access and moves R[P] past it (log 19). -/

namespace Sys2Proof.Machine

/-- The memory operand `MemRead(R[X], 1)` (43 R190). -/
def State.memX (s : State) : Byte := s.memRead (s.reg s.cpu.x)

/-- The state after the memory operand is read; R[X] is unchanged (43 R190). -/
def State.afterMemX (s : State) : State := s.afterRead (s.reg s.cpu.x)

/-- The state after an immediate at R[P] is read: R[P] is past it (43 R190, 41 R164). -/
def State.takeImm (s : State) : State := (s.afterRead s.pc).setPc (inc16 s.pc)

/-- The target of a short branch: the page of the operand byte's address, and the operand byte (30 R102 (c)). -/
def shortTarget (pc : Word) (a : Byte) : Word := withLow pc a

/-- `ShortBranch(cond)` (44 R230). -/
def State.shortBranch (s : State) (cond : Bool) (a : Byte) : State :=
  (s.afterRead s.pc).setPc (if cond then shortTarget s.pc a else inc16 s.pc)

/-- `LongBranch(cond)`: the two target bytes are read only when the branch is taken (44 R250). -/
def State.longBranch (s : State) (cond : Bool) (hl : Word) : State :=
  if cond then ((s.afterRead s.pc).afterRead (inc16 s.pc)).setPc hl
  else s.setPc (inc16 (inc16 s.pc))

/-- `LongSkip(cond)`: nothing is read (44 R251). -/
def State.longSkip (s : State) (cond : Bool) : State :=
  if cond then s.setPc (inc16 (inc16 s.pc)) else s

/-- D and DF take the result of an ALU operation (43 R190). -/
def State.setAlu (s : State) (r : Byte × Bool) : State := (s.setD r.1).setDf r.2

end Sys2Proof.Machine
end

