-- ==== Sys2Proof/Machine/Alu.lean ====
section
/-! DEFINITION. The ALU: logic, arithmetic and shifts (spec/43_alu.md). -/

namespace Sys2Proof.Machine

/-- `OR` (43 R195). -/
def execOr (s : State) : Result := .next (s.afterMemX.setD (s.cpu.d ||| s.memX))

/-- `ORI k` (43 R196). -/
def execOri (k : Byte) (s : State) : Result := .next (s.takeImm.setD (s.cpu.d ||| k))

/-- `AND` (43 R197). -/
def execAnd (s : State) : Result := .next (s.afterMemX.setD (s.cpu.d &&& s.memX))

/-- `ANI k` (43 R198). -/
def execAni (k : Byte) (s : State) : Result := .next (s.takeImm.setD (s.cpu.d &&& k))

/-- `XOR` (43 R199). -/
def execXor (s : State) : Result := .next (s.afterMemX.setD (s.cpu.d ^^^ s.memX))

/-- `XRI k` (43 R200). -/
def execXri (k : Byte) (s : State) : Result := .next (s.takeImm.setD (s.cpu.d ^^^ k))

/-- `ADD` (43 R201). -/
def execAdd (s : State) : Result := .next (s.afterMemX.setAlu (addOp Config.dfCorner s.cpu.d s.memX false))

/-- `ADI k` (43 R202). -/
def execAdi (k : Byte) (s : State) : Result := .next (s.takeImm.setAlu (addOp Config.dfCorner s.cpu.d k false))

/-- `ADC` (43 R203). -/
def execAdc (s : State) : Result := .next (s.afterMemX.setAlu (addOp Config.dfCorner s.cpu.d s.memX s.cpu.df))

/-- `ADCI k` (43 R204). -/
def execAdci (k : Byte) (s : State) : Result := .next (s.takeImm.setAlu (addOp Config.dfCorner s.cpu.d k s.cpu.df))

/-- `SD` (43 R205). -/
def execSd (s : State) : Result := .next (s.afterMemX.setAlu (subOp Config.dfCorner s.memX s.cpu.d false))

/-- `SDI k` (43 R206). -/
def execSdi (k : Byte) (s : State) : Result := .next (s.takeImm.setAlu (subOp Config.dfCorner k s.cpu.d false))

/-- `SDB` (43 R207). -/
def execSdb (s : State) : Result := .next (s.afterMemX.setAlu (subOp Config.dfCorner s.memX s.cpu.d (!s.cpu.df)))

/-- `SDBI k` (43 R208). -/
def execSdbi (k : Byte) (s : State) : Result := .next (s.takeImm.setAlu (subOp Config.dfCorner k s.cpu.d (!s.cpu.df)))

/-- `SM` (43 R209). -/
def execSm (s : State) : Result := .next (s.afterMemX.setAlu (subOp Config.dfCorner s.cpu.d s.memX false))

/-- `SMI k` (43 R210). -/
def execSmi (k : Byte) (s : State) : Result := .next (s.takeImm.setAlu (subOp Config.dfCorner s.cpu.d k false))

/-- `SMB` (43 R211). -/
def execSmb (s : State) : Result := .next (s.afterMemX.setAlu (subOp Config.dfCorner s.cpu.d s.memX (!s.cpu.df)))

/-- `SMBI k` (43 R212). -/
def execSmbi (k : Byte) (s : State) : Result := .next (s.takeImm.setAlu (subOp Config.dfCorner s.cpu.d k (!s.cpu.df)))

/-- `SHR` (43 R213). -/
def execShr (s : State) : Result := .next (s.setAlu (shiftRight s.cpu.d false))

/-- `SHRC` (43 R214). -/
def execShrc (s : State) : Result := .next (s.setAlu (shiftRight s.cpu.d s.cpu.df))

/-- `SHL` (43 R215). -/
def execShl (s : State) : Result := .next (s.setAlu (shiftLeft s.cpu.d false))

/-- `SHLC` (43 R216). -/
def execShlc (s : State) : Result := .next (s.setAlu (shiftLeft s.cpu.d s.cpu.df))

end Sys2Proof.Machine
end

