-- ==== Sys2Proof/Machine/Branch.lean ====
section
/-! DEFINITION. Branches and skips (spec/44_branch.md). -/

namespace Sys2Proof.Machine

/-- D = 0x00, the condition of the zero tests (44 R233). -/
def State.dZero (s : State) : Bool := decide (s.cpu.d = 0)

/-- `BR a` (44 R231). -/
def execBr (a : Byte) (s : State) : Result := .next (s.shortBranch true a)

/-- `BQ a` (44 R232). -/
def execBq (a : Byte) (s : State) : Result := .next (s.shortBranch s.cpu.q a)

/-- `BZ a` (44 R233). -/
def execBz (a : Byte) (s : State) : Result := .next (s.shortBranch s.dZero a)

/-- `BDF a` (44 R234). -/
def execBdf (a : Byte) (s : State) : Result := .next (s.shortBranch s.cpu.df a)

/-- `B1 a` (44 R235). -/
def execB1 (a : Byte) (s : State) : Result := .next (s.shortBranch (s.efBit 0) a)

/-- `B2 a` (44 R236). -/
def execB2 (a : Byte) (s : State) : Result := .next (s.shortBranch (s.efBit 1) a)

/-- `B3 a` (44 R237). -/
def execB3 (a : Byte) (s : State) : Result := .next (s.shortBranch (s.efBit 2) a)

/-- `B4 a` (44 R238). -/
def execB4 (a : Byte) (s : State) : Result := .next (s.shortBranch (s.efBit 3) a)

/-- `SKP`: the byte after the opcode is skipped (44 R239), and not read (DESIGN CHOICE, log 20). -/
def execSkp (_ : Byte) (s : State) : Result := .next (s.setPc (inc16 s.pc))

/-- `BNQ a` (44 R240). -/
def execBnq (a : Byte) (s : State) : Result := .next (s.shortBranch (!s.cpu.q) a)

/-- `BNZ a` (44 R241). -/
def execBnz (a : Byte) (s : State) : Result := .next (s.shortBranch (!s.dZero) a)

/-- `BNF a` (44 R242). -/
def execBnf (a : Byte) (s : State) : Result := .next (s.shortBranch (!s.cpu.df) a)

/-- `BN1 a` (44 R243). -/
def execBn1 (a : Byte) (s : State) : Result := .next (s.shortBranch (!s.efBit 0) a)

/-- `BN2 a` (44 R244). -/
def execBn2 (a : Byte) (s : State) : Result := .next (s.shortBranch (!s.efBit 1) a)

/-- `BN3 a` (44 R245). -/
def execBn3 (a : Byte) (s : State) : Result := .next (s.shortBranch (!s.efBit 2) a)

/-- `BN4 a` (44 R246). -/
def execBn4 (a : Byte) (s : State) : Result := .next (s.shortBranch (!s.efBit 3) a)

/-- `LBR hl` (44 R252). -/
def execLbr (hl : Word) (s : State) : Result := .next (s.longBranch true hl)

/-- `LBQ hl` (44 R253). -/
def execLbq (hl : Word) (s : State) : Result := .next (s.longBranch s.cpu.q hl)

/-- `LBZ hl` (44 R254). -/
def execLbz (hl : Word) (s : State) : Result := .next (s.longBranch s.dZero hl)

/-- `LBDF hl` (44 R255). -/
def execLbdf (hl : Word) (s : State) : Result := .next (s.longBranch s.cpu.df hl)

/-- `NOP`: nothing (44 R256). -/
def execNop (s : State) : Result := .next s

/-- `LSNQ` (44 R257). -/
def execLsnq (s : State) : Result := .next (s.longSkip (!s.cpu.q))

/-- `LSNZ` (44 R258). -/
def execLsnz (s : State) : Result := .next (s.longSkip (!s.dZero))

/-- `LSNF` (44 R259). -/
def execLsnf (s : State) : Result := .next (s.longSkip (!s.cpu.df))

/-- `LSKP` (44 R260). -/
def execLskp (s : State) : Result := .next (s.longSkip true)

/-- `LBNQ hl` (44 R261). -/
def execLbnq (hl : Word) (s : State) : Result := .next (s.longBranch (!s.cpu.q) hl)

/-- `LBNZ hl` (44 R262). -/
def execLbnz (hl : Word) (s : State) : Result := .next (s.longBranch (!s.dZero) hl)

/-- `LBNF hl` (44 R263). -/
def execLbnf (hl : Word) (s : State) : Result := .next (s.longBranch (!s.cpu.df) hl)

/-- `LSIE` (44 R264). -/
def execLsie (s : State) : Result := .next (s.longSkip s.cpu.ie)

/-- `LSQ` (44 R265). -/
def execLsq (s : State) : Result := .next (s.longSkip s.cpu.q)

/-- `LSZ` (44 R266). -/
def execLsz (s : State) : Result := .next (s.longSkip s.dZero)

/-- `LSDF` (44 R267). -/
def execLsdf (s : State) : Result := .next (s.longSkip s.cpu.df)

end Sys2Proof.Machine
end

