-- ==== Sys2Proof/Machine/Devices.lean ====
section
/-! DEFINITION. The platform devices: the CDP1861 video controller (60 R320 to R330), the VP590's background (60 R334),
the CDP1863 (60 R340 to R344), the keypad (60 R350), the port map (60 R351) and the expansion boards (60 R352). -/

namespace Sys2Proof.Machine

/-! ## The video controller -/

/-- The clear-frame callback (60 R328). -/
def State.clearFrame (s : State) : State := s.emit s.plat.wiring.attached.clearFrame .clearFrame

/-- The frame-present callback, which has no effect on core state (60 R326). -/
def State.present (s : State) : State := s.emit s.plat.wiring.attached.present .present

/-- `SetDisplay(enable)` (60 R328). -/
def State.setDisplay (s : State) (enable : Bool) : State :=
  if enable then { s with video := { s.video with display := true } }
  else ({ s with video := { s.video with display := false, cursor := 0 } } : State).clearFrame.present

/-- The lines in which the external flag is asserted: 60..63 and 188..191 (60 R323). -/
def Video.inFlagWindow (v : Video) : Bool :=
  (decide (60 ≤ v.line) && decide (v.line ≤ 63)) || (decide (188 ≤ v.line) && decide (v.line ≤ 191))

/-- At cycle 0 of a line the controller writes its external flag (60 R323). -/
def Video.writesFlag (v : Video) : Bool := v.display && decide (v.cycle = 0)

/-- At line 62, cycle 0 the controller requests an interrupt (60 R324). -/
def Video.requestsInterrupt (v : Video) : Bool := v.display && decide (v.cycle = 0) && decide (v.line = 62)

/-- At cycle 2 of lines 64..191 the controller requests a DMA-out burst (60 R325). -/
def Video.requestsDma (v : Video) : Bool :=
  v.display && decide (v.cycle = 2) && decide (64 ≤ v.line) && decide (v.line ≤ 191)

/-- At line 192, cycle 0 the frame is presented, whatever the display state (60 R326). -/
def Video.presents (v : Video) : Bool := decide (v.cycle = 0) && decide (v.line = 192)

/-- The counters after one `Sync()` (60 R322). -/
def Video.advance (v : Video) : Video :=
  if v.cycle + 1 = Config.lineCycles then
    { v with cycle := 0, line := if v.line + 1 = Config.frameLines then 0 else v.line + 1 }
  else { v with cycle := v.cycle + 1 }

/-- `Sync()`: the tests use the counters held at entry, then the counters advance (60 R321). -/
def State.sync (s : State) : State :=
  let v := s.video
  let s1 := if v.writesFlag then s.setEf Config.videoEf v.inFlagWindow else s
  let s2 := if v.requestsInterrupt then s1.issueInterrupt else s1
  let s3 := if v.requestsDma then s2.issueDma .output ⟨Config.dmaBurst, Config.videoCtx, .video⟩ else s2
  let s4 := if v.presents then s3.present else s3
  { s4 with video := s4.video.advance }

/-- `SyncTick()`: the controller's `Sync()` when one is installed (00 R14, 60 R362). -/
def State.syncTick (s : State) : State := if s.plat.wiring.attached.sync then s.sync else s

/-- `DmaOutByte(ctx, b)`: the byte goes to the pixel sink, and the display cursor advances (60 R327). That the sink's
`context` is the request's `ctx` is DESIGN CHOICE, log 17: the spec does not say which context it is. That the scanline is the integer `line - 64`, negative where the line
counter is below 64, is DESIGN CHOICE, log 22: 00 R10 calls all values unsigned, and no rule gives the result there. -/
def State.dmaOutByte (s : State) (ctx : Nat) (b : Byte) : State :=
  let s1 := s.emit s.plat.wiring.attached.pixel (.pixel b ((s.video.line : Int) - 64) (s.video.cursor % 8) ctx)
  { s1 with video := { s1.video with cursor := (s1.video.cursor + 1) % Config.displayBytes } }

/-! ## Expansion boards -/

/-- The VP590's registers at installation (60 R332; OPEN, log 13). -/
def Vp590.initial : Vp590 where
  colourEnabled := Config.vp590InitEnabled
  high := Config.vp590InitHigh
  background := Config.vp590InitBackground
  colour := .ofFn fun k => Config.vp590InitColour k

/-- The VP590's trailing region: its write hook over 0xC000..0xDFFF, with no memory behind it (20 R86, log 13). -/
def vp590Region : Region := ⟨0xC000, 0xDFFF, 2, 0, false, false, some .vp590⟩

/-- Swaps the expansion board: the old board's trailing region goes, the new board and its region come, and a VP595
brings a CDP1863 at its default rate (60 R352, R340; 20 R72). The audio phase and the enable flag keep their values: DESIGN
CHOICE, log 14, since the spec does not say what they are after a swap. -/
def State.swapBoard (s : State) (k : BoardKind) : State :=
  let kept := s.plat.regions.filter fun r => decide (r.hook ≠ some .vp590)
  match k with
  | .none => { s with plat := { s.plat with board := .none, regions := kept } }
  | .vp585 => { s with plat := { s.plat with board := .vp585, regions := kept } }
  | .vp590 => { s with plat := { s.plat with board := .vp590 .initial, regions := kept ++ [vp590Region] } }
  | .vp595 => { s with plat := { s.plat with board := .vp595, regions := kept, divideRate := Config.defaultRate } }

/-- An access to the VP590's background port steps the background colour (60 R334). -/
def State.stepBackground (s : State) (d : Dir) (n : Port) : State :=
  match s.plat.board with
  | .vp590 b =>
    if Config.vp590BackgroundPort = (d, n) then
      { s with plat := { s.plat with board := .vp590 { b with background := b.background + 1 } } }
    else s
  | _ => s

/-- An input reads the VP590's background port (60 R334). -/
def State.atBackground (s : State) (n : Port) : Bool :=
  match s.plat.board with
  | .vp590 _ => decide (Config.vp590BackgroundPort = (.input, n))
  | _ => false

/-! ## The CDP1863 -/

/-- A port write of byte `b` to the divider sets `divide_rate <- b + 1`, when the VP595 is installed (60 R341, R351). -/
def State.setRate (s : State) (b : Byte) : State :=
  match s.plat.board with
  | .vp595 => { s with plat := { s.plat with divideRate := b.toNat + 1 } }
  | _ => s

/-- The CDP1863's output frequency (60 R342). -/
def Platform.dividerHz (q : Platform) : Rat :=
  Config.dividerInputHz / (Config.dividerPredivide * 2 * q.divideRate)

/-- The values of Q that the host has been told, newest first (45 R295). -/
def qReports (out : List Output) : List Bool :=
  out.filterMap fun o => match o with
    | .q v => some v
    | _ => none

/-- Q as it is seen outside the core: the value last passed to `q_output_changed`, and none before the first call
(45 R295). -/
def State.reportedQ (s : State) : Option Bool := (qReports s.env.out).head?

/-- One sample of the host's audio mixer with sample interval `dt`, and the phase after it (60 R343). No machine cycle
runs it, and it changes the audio phase alone (60 R344). The gate, should it look at Q (OPEN, 92 D27), is given the
reported Q, since Q is observed outside the core in no other way (45 R295). -/
def State.audioPull (s : State) (dt : Rat) : Rat × State :=
  let period := 1 / s.plat.dividerHz
  let level := if s.plat.audioPhase < period / 2 then Config.dividerAmplitude else -Config.dividerAmplitude
  let sample := if Config.dividerSounds s.plat.audioEnable s.reportedQ then level else Config.dividerSilence
  let t := s.plat.audioPhase + dt
  (sample, { s with plat := { s.plat with audioPhase := t - period * (t / period).floor } })

/-! ## The keypad and the port map -/

/-- The key numbered by the key latch is held down (60 R350). -/
def Platform.keyDown (q : Platform) : Bool := q.keys.getLsbD q.keyLatch.toNat

/-- The machine assembly drives the keypad's EF line (60 R350, log 16). -/
def State.driveKeypad (s : State) : State :=
  match s.plat.wiring.keypadEf with
  | some k => s.setEf k s.plat.keyDown
  | none => s

/-- What an output device does with the byte (60 R351). -/
def State.deviceOut (s : State) (dev : OutDevice) (b : Byte) : State :=
  match dev with
  | .ignored => s
  | .displayOff => s.setDisplay false
  | .keyLatch => ({ s with plat := { s.plat with keyLatch := lowNibble b } } : State).driveKeypad
  | .divider => s.setRate b
  | .external => s.react

/-- The byte an input device supplies, and its effect (60 R351). -/
def State.deviceIn (s : State) (dev : InDevice) : Byte × State :=
  match dev with
  | .nothing => (0, s)
  | .displayOn => (0, s.setDisplay true)
  | .external => s.react.supply

/-- `PortOut(n, b)`: nothing without a callback, else the port map's device, and the VP590's background where that is
its port (00 R14, 60 R351). The access may release the address-inhibit latch, also when no callback is attached: DESIGN
CHOICE, log 7, since `P_INHIBIT_RELEASE` is OPEN (20 R85) and 00 R14 says only that the call does nothing. -/
def State.portOut (s : State) (n : Port) (b : Byte) : State :=
  let s1 :=
    if s.plat.wiring.attached.portOut then
      ((s.emit true (.portOut n b)).deviceOut (s.plat.wiring.out[n.toNat]'n.isLt) b).stepBackground .output n
    else s
  s1.touch .portOut n.toNat

/-- `PortIn(n)`: 0x00 without a callback, else the port map's device (00 R14, 60 R351). The access may release the
address-inhibit latch, also when no callback is attached: DESIGN CHOICE, log 7, as for `portOut`. -/
def State.portIn (s : State) (n : Port) : Byte × State :=
  if s.plat.wiring.attached.portIn then
    let r := (s.emit true (.portIn n)).deviceIn (s.plat.wiring.inp[n.toNat]'n.isLt)
    let b := if s.atBackground n then Config.vp590BackgroundByte else r.1
    (b, (r.2.stepBackground .input n).touch .portIn n.toNat)
  else (0, s.touch .portIn n.toNat)

end Sys2Proof.Machine
end

