-- ==== Sys2Proof/Machine/IoControl.lean ====
section
/-! DEFINITION. Idle, input and output, interrupt control and Q (spec/45_io_control.md). -/

namespace Sys2Proof.Machine

/-- `IDL`: its `Exec` action does nothing; the idle state is the cycle machine's (45 R280, Machine/Cycle.lean). -/
def execIdl (s : State) : Result := .next s

/-- `OUT n`: the byte at R[X] goes to the port, and R[X] is passed (45 R281). -/
def State.outPort (s : State) (n : Port) : State :=
  let a := s.reg s.cpu.x
  ((s.afterRead a).setReg s.cpu.x (inc16 a)).portOut n (s.memRead a)

/-- `INP n`: the port's byte goes to memory at R[X] and to D (45 R283). -/
def State.inPort (s : State) (n : Port) : State :=
  let r := s.portIn n
  (r.2.memWrite (r.2.reg r.2.cpu.x) r.1).setD r.1

/-- Opcode 0x68 under either value of `P_OP68` (45 R282). -/
def State.opcode68 (s : State) : Op68 → State
  | .input0 => s.inPort 0
  | .nop => s

/-- `OUT 1` (45 R281). -/
def execOut1 (s : State) : Result := .next (s.outPort 1)

/-- `OUT 2` (45 R281). -/
def execOut2 (s : State) : Result := .next (s.outPort 2)

/-- `OUT 3` (45 R281). -/
def execOut3 (s : State) : Result := .next (s.outPort 3)

/-- `OUT 4` (45 R281). -/
def execOut4 (s : State) : Result := .next (s.outPort 4)

/-- `OUT 5` (45 R281). -/
def execOut5 (s : State) : Result := .next (s.outPort 5)

/-- `OUT 6` (45 R281). -/
def execOut6 (s : State) : Result := .next (s.outPort 6)

/-- `OUT 7` (45 R281). -/
def execOut7 (s : State) : Result := .next (s.outPort 7)

/-- Opcode 0x68 with `P_OP68` as the spec sets it (45 R282). -/
def execInp0 (s : State) : Result := .next (s.opcode68 Config.op68)

/-- `INP 1` (45 R283). -/
def execInp1 (s : State) : Result := .next (s.inPort 1)

/-- `INP 2` (45 R283). -/
def execInp2 (s : State) : Result := .next (s.inPort 2)

/-- `INP 3` (45 R283). -/
def execInp3 (s : State) : Result := .next (s.inPort 3)

/-- `INP 4` (45 R283). -/
def execInp4 (s : State) : Result := .next (s.inPort 4)

/-- `INP 5` (45 R283). -/
def execInp5 (s : State) : Result := .next (s.inPort 5)

/-- `INP 6` (45 R283). -/
def execInp6 (s : State) : Result := .next (s.inPort 6)

/-- `INP 7` (45 R283). -/
def execInp7 (s : State) : Result := .next (s.inPort 7)

/-- `RET` (45 R287). -/
def execRet (s : State) : Result := .next (s.returnFrom true)

/-- `DIS` (45 R288). -/
def execDis (s : State) : Result := .next (s.returnFrom false)

/-- `SAV` (45 R291). -/
def execSav (s : State) : Result := .next (s.memWrite (s.reg s.cpu.x) s.cpu.t)

/-- `MARK` (45 R292). -/
def execMark (s : State) : Result :=
  let t := packNibbles s.cpu.x s.cpu.p
  .next ((((s.setT t).memWrite (s.reg 2) t).setX s.cpu.p).setReg 2 (dec16 (s.reg 2)))

/-- `REQ` (45 R293). -/
def execReq (s : State) : Result := .next (s.setQ false)

/-- `SEQ` (45 R294). -/
def execSeq (s : State) : Result := .next (s.setQ true)

end Sys2Proof.Machine
end

