-- ==== Sys2Proof/Machine/LoadStore.lean ====
section
/-! DEFINITION. Loads and stores (spec/41_load_store.md). Each meaning is the `Exec` action of its instruction (00 R16). -/

namespace Sys2Proof.Machine

/-- `D <- MemRead(R[n], 1)`, R[n] unchanged (41 R160, R162). -/
def State.loadVia (s : State) (n : Nibble) : State := (s.afterRead (s.reg n)).setD (s.memRead (s.reg n))

/-- `D <- MemRead(R[n], 1); R[n] <- inc16(R[n])` (41 R161, R163). -/
def State.loadAdvance (s : State) (n : Nibble) : State := (s.loadVia n).setReg n (inc16 (s.reg n))

/-- `LDN 1` (41 R160). -/
def execLdn1 (s : State) : Result := .next (s.loadVia 1)

/-- `LDN 2` (41 R160). -/
def execLdn2 (s : State) : Result := .next (s.loadVia 2)

/-- `LDN 3` (41 R160). -/
def execLdn3 (s : State) : Result := .next (s.loadVia 3)

/-- `LDN 4` (41 R160). -/
def execLdn4 (s : State) : Result := .next (s.loadVia 4)

/-- `LDN 5` (41 R160). -/
def execLdn5 (s : State) : Result := .next (s.loadVia 5)

/-- `LDN 6` (41 R160). -/
def execLdn6 (s : State) : Result := .next (s.loadVia 6)

/-- `LDN 7` (41 R160). -/
def execLdn7 (s : State) : Result := .next (s.loadVia 7)

/-- `LDN 8` (41 R160). -/
def execLdn8 (s : State) : Result := .next (s.loadVia 8)

/-- `LDN 9` (41 R160). -/
def execLdn9 (s : State) : Result := .next (s.loadVia 9)

/-- `LDN 10` (41 R160). -/
def execLdn10 (s : State) : Result := .next (s.loadVia 10)

/-- `LDN 11` (41 R160). -/
def execLdn11 (s : State) : Result := .next (s.loadVia 11)

/-- `LDN 12` (41 R160). -/
def execLdn12 (s : State) : Result := .next (s.loadVia 12)

/-- `LDN 13` (41 R160). -/
def execLdn13 (s : State) : Result := .next (s.loadVia 13)

/-- `LDN 14` (41 R160). -/
def execLdn14 (s : State) : Result := .next (s.loadVia 14)

/-- `LDN 15` (41 R160). -/
def execLdn15 (s : State) : Result := .next (s.loadVia 15)

/-- `LDA n` (41 R161). -/
def execLda (n : Nat) (s : State) : Result := .next (s.loadAdvance (regNo n))

/-- `LDX` (41 R162). -/
def execLdx (s : State) : Result := .next (s.loadVia s.cpu.x)

/-- `LDXA` (41 R163). -/
def execLdxa (s : State) : Result := .next (s.loadAdvance s.cpu.x)

/-- `LDI k` (41 R164). -/
def execLdi (k : Byte) (s : State) : Result := .next (s.takeImm.setD k)

/-- `STR n` (41 R165). -/
def execStr (n : Nat) (s : State) : Result := .next (s.memWrite (s.reg (regNo n)) s.cpu.d)

/-- `STXD` (41 R166). -/
def execStxd (s : State) : Result :=
  let a := s.reg s.cpu.x
  .next ((s.memWrite a s.cpu.d).setReg s.cpu.x (dec16 a))

end Sys2Proof.Machine
end

