-- ==== Sys2Proof/Machine/Register.lean ====
section
/-! DEFINITION. Register operations (spec/42_register.md). -/

namespace Sys2Proof.Machine

/-- `INC n` (42 R170). -/
def execInc (n : Nat) (s : State) : Result := .next (s.setReg (regNo n) (inc16 (s.reg (regNo n))))

/-- `DEC n` (42 R171). -/
def execDec (n : Nat) (s : State) : Result := .next (s.setReg (regNo n) (dec16 (s.reg (regNo n))))

/-- `IRX` (42 R172). -/
def execIrx (s : State) : Result := .next (s.setReg s.cpu.x (inc16 (s.reg s.cpu.x)))

/-- `GLO n` (42 R173). -/
def execGlo (n : Nat) (s : State) : Result := .next (s.setD (lowByte (s.reg (regNo n))))

/-- `GHI n` (42 R174). -/
def execGhi (n : Nat) (s : State) : Result := .next (s.setD (highByte (s.reg (regNo n))))

/-- `PLO n` (42 R175). -/
def execPlo (n : Nat) (s : State) : Result :=
  .next (s.setReg (regNo n) (withLow (s.reg (regNo n)) s.cpu.d))

/-- `PHI n` (42 R176). -/
def execPhi (n : Nat) (s : State) : Result :=
  .next (s.setReg (regNo n) (withHigh (s.reg (regNo n)) s.cpu.d))

/-- `SEP n` (42 R177). -/
def execSep (n : Nat) (s : State) : Result := .next (s.setP (regNo n))

/-- `SEX n` (42 R178). -/
def execSex (n : Nat) (s : State) : Result := .next (s.setX (regNo n))

end Sys2Proof.Machine
end

