-- ==== Sys2Proof/Machine/Dispatch.lean ====
section
/-! DEFINITION. The `Exec` action of each instruction, one arm per row of the opcode table (40 R128). -/

namespace Sys2Proof.Machine

def exec (i : Instr) (s : State) : Host.Outcome State Fault Refusal :=
  match i with
  | .idl => Sys2Proof.Machine.execIdl s
  | .ldn1 => Sys2Proof.Machine.execLdn1 s
  | .ldn2 => Sys2Proof.Machine.execLdn2 s
  | .ldn3 => Sys2Proof.Machine.execLdn3 s
  | .ldn4 => Sys2Proof.Machine.execLdn4 s
  | .ldn5 => Sys2Proof.Machine.execLdn5 s
  | .ldn6 => Sys2Proof.Machine.execLdn6 s
  | .ldn7 => Sys2Proof.Machine.execLdn7 s
  | .ldn8 => Sys2Proof.Machine.execLdn8 s
  | .ldn9 => Sys2Proof.Machine.execLdn9 s
  | .ldn10 => Sys2Proof.Machine.execLdn10 s
  | .ldn11 => Sys2Proof.Machine.execLdn11 s
  | .ldn12 => Sys2Proof.Machine.execLdn12 s
  | .ldn13 => Sys2Proof.Machine.execLdn13 s
  | .ldn14 => Sys2Proof.Machine.execLdn14 s
  | .ldn15 => Sys2Proof.Machine.execLdn15 s
  | .inc n => Sys2Proof.Machine.execInc n s
  | .dec n => Sys2Proof.Machine.execDec n s
  | .lda n => Sys2Proof.Machine.execLda n s
  | .str n => Sys2Proof.Machine.execStr n s
  | .glo n => Sys2Proof.Machine.execGlo n s
  | .ghi n => Sys2Proof.Machine.execGhi n s
  | .plo n => Sys2Proof.Machine.execPlo n s
  | .phi n => Sys2Proof.Machine.execPhi n s
  | .sep n => Sys2Proof.Machine.execSep n s
  | .sex n => Sys2Proof.Machine.execSex n s
  | .br a => Sys2Proof.Machine.execBr a s
  | .bq a => Sys2Proof.Machine.execBq a s
  | .bz a => Sys2Proof.Machine.execBz a s
  | .bdf a => Sys2Proof.Machine.execBdf a s
  | .b1 a => Sys2Proof.Machine.execB1 a s
  | .b2 a => Sys2Proof.Machine.execB2 a s
  | .b3 a => Sys2Proof.Machine.execB3 a s
  | .b4 a => Sys2Proof.Machine.execB4 a s
  | .skp x => Sys2Proof.Machine.execSkp x s
  | .bnq a => Sys2Proof.Machine.execBnq a s
  | .bnz a => Sys2Proof.Machine.execBnz a s
  | .bnf a => Sys2Proof.Machine.execBnf a s
  | .bn1 a => Sys2Proof.Machine.execBn1 a s
  | .bn2 a => Sys2Proof.Machine.execBn2 a s
  | .bn3 a => Sys2Proof.Machine.execBn3 a s
  | .bn4 a => Sys2Proof.Machine.execBn4 a s
  | .irx => Sys2Proof.Machine.execIrx s
  | .out1 => Sys2Proof.Machine.execOut1 s
  | .out2 => Sys2Proof.Machine.execOut2 s
  | .out3 => Sys2Proof.Machine.execOut3 s
  | .out4 => Sys2Proof.Machine.execOut4 s
  | .out5 => Sys2Proof.Machine.execOut5 s
  | .out6 => Sys2Proof.Machine.execOut6 s
  | .out7 => Sys2Proof.Machine.execOut7 s
  | .inp0 => Sys2Proof.Machine.execInp0 s
  | .inp1 => Sys2Proof.Machine.execInp1 s
  | .inp2 => Sys2Proof.Machine.execInp2 s
  | .inp3 => Sys2Proof.Machine.execInp3 s
  | .inp4 => Sys2Proof.Machine.execInp4 s
  | .inp5 => Sys2Proof.Machine.execInp5 s
  | .inp6 => Sys2Proof.Machine.execInp6 s
  | .inp7 => Sys2Proof.Machine.execInp7 s
  | .ret => Sys2Proof.Machine.execRet s
  | .dis => Sys2Proof.Machine.execDis s
  | .ldxa => Sys2Proof.Machine.execLdxa s
  | .stxd => Sys2Proof.Machine.execStxd s
  | .adc => Sys2Proof.Machine.execAdc s
  | .sdb => Sys2Proof.Machine.execSdb s
  | .shrc => Sys2Proof.Machine.execShrc s
  | .smb => Sys2Proof.Machine.execSmb s
  | .sav => Sys2Proof.Machine.execSav s
  | .mark => Sys2Proof.Machine.execMark s
  | .req => Sys2Proof.Machine.execReq s
  | .seq => Sys2Proof.Machine.execSeq s
  | .adci k => Sys2Proof.Machine.execAdci k s
  | .sdbi k => Sys2Proof.Machine.execSdbi k s
  | .shlc => Sys2Proof.Machine.execShlc s
  | .smbi k => Sys2Proof.Machine.execSmbi k s
  | .lbr hl => Sys2Proof.Machine.execLbr hl s
  | .lbq hl => Sys2Proof.Machine.execLbq hl s
  | .lbz hl => Sys2Proof.Machine.execLbz hl s
  | .lbdf hl => Sys2Proof.Machine.execLbdf hl s
  | .nop => Sys2Proof.Machine.execNop s
  | .lsnq => Sys2Proof.Machine.execLsnq s
  | .lsnz => Sys2Proof.Machine.execLsnz s
  | .lsnf => Sys2Proof.Machine.execLsnf s
  | .lskp => Sys2Proof.Machine.execLskp s
  | .lbnq hl => Sys2Proof.Machine.execLbnq hl s
  | .lbnz hl => Sys2Proof.Machine.execLbnz hl s
  | .lbnf hl => Sys2Proof.Machine.execLbnf hl s
  | .lsie => Sys2Proof.Machine.execLsie s
  | .lsq => Sys2Proof.Machine.execLsq s
  | .lsz => Sys2Proof.Machine.execLsz s
  | .lsdf => Sys2Proof.Machine.execLsdf s
  | .ldx => Sys2Proof.Machine.execLdx s
  | .or => Sys2Proof.Machine.execOr s
  | .and => Sys2Proof.Machine.execAnd s
  | .xor => Sys2Proof.Machine.execXor s
  | .add => Sys2Proof.Machine.execAdd s
  | .sd => Sys2Proof.Machine.execSd s
  | .shr => Sys2Proof.Machine.execShr s
  | .sm => Sys2Proof.Machine.execSm s
  | .ldi k => Sys2Proof.Machine.execLdi k s
  | .ori k => Sys2Proof.Machine.execOri k s
  | .ani k => Sys2Proof.Machine.execAni k s
  | .xri k => Sys2Proof.Machine.execXri k s
  | .adi k => Sys2Proof.Machine.execAdi k s
  | .sdi k => Sys2Proof.Machine.execSdi k s
  | .shl => Sys2Proof.Machine.execShl s
  | .smi k => Sys2Proof.Machine.execSmi k s

end Sys2Proof.Machine
end

