-- ==== Sys2Proof/Machine/Environment.lean ====
section
/-! DEFINITION. The host's side: control modes, the Reset transition and construction (spec/70_reset_and_hazards.md),
and the host's actions between machine cycles (70 R390, R394). -/

namespace Sys2Proof.Machine

/-! ## Reset -/

/-- The CPU registers after the Reset transition, under either value of `P_RESET_SCOPE` (70 R381, 10 R56). The EF bits are
false under both (92 D12). -/
def Cpu.resetFrom (c : Cpu) : ResetScope → Cpu
  | .allZero => Cpu.reset
  | .listedOnly => { c with i := 0, n := 0, q := false, ie := true, ef := .replicate 4 false }

/-- `ResetTransition()`: the CPU and stepper take their reset values, the accumulator and the pulse phase are zeroed and
the address-inhibit latch is set; memory, the video controller, the CDP1863 and the key latch keep their state (70 R381). -/
def State.resetTransition (s : State) (scope : ResetScope) : State :=
  { s with
    cpu := s.cpu.resetFrom scope
    stepper := Stepper.reset
    clock := { s.clock with acc := 0, pulsePhase := 0 }
    plat := { s.plat with latch := true } }

/-- `PowerUpPass()` (70 R384). -/
def State.powerUpPass (s : State) : State := ((s.setX 0).setP 0).setReg 0 0

/-- What a control-mode call does besides the mode change (70 R380). -/
def State.modeAction (s : State) (m : ControlMode) (now : Rat) : State :=
  match m with
  | .reset => s.resetTransition Config.resetScope
  | .run =>
    let s1 : State := { s with clock := { s.clock with lastTime := now } }
    if s.clock.mode = .reset then s1.powerUpPass else s1
  | .pause | .load => s

/-- `set_control_mode(mode, now)` (70 R380). -/
def State.setControlMode (s : State) (m : ControlMode) (now : Rat) : State :=
  let s1 := s.modeAction m now
  { s1 with clock := { s1.clock with mode := m } }

/-- CLOCK_HZ for a requested frequency f > 0: `min(f, 6 400 000)` (70 R386). -/
def clampHz (f : Frequency) : Frequency := if f.val ≤ Config.maxHz.val then f else Config.maxHz

/-- The registers before the first Reset transition: `any value` for those that `ListedOnly` does not reset (10 R56; for P,
X and R[0] log 10), and the EF bits false (92 D12). -/
def Cpu.powerOn : Cpu where
  r := .ofFn fun k => Config.powerOnWord k
  p := (Config.powerOnWord 16).setWidth 4
  x := (Config.powerOnWord 17).setWidth 4
  d := Config.powerOnByte 0
  df := Config.powerOnDf
  b := Config.powerOnByte 1
  i := 0
  n := 0
  t := Config.powerOnByte 2
  ie := true
  q := false
  ef := .replicate 4 false

/-- Construction with the requested clock frequency `f` > 0 (70 R386, 10 R54, R56). -/
def State.construct (scope : ResetScope) (f : Frequency) : State :=
  let s := ({ State.reset with cpu := Cpu.powerOn } : State).resetTransition scope
  { s with clock := { s.clock with hz := clampHz f } }

/-! ## The host's actions -/

/-- A ROM load repoints regions 0 and 1: region 1 shows the image, and region 0 while the latch is set (20 R72, R84). -/
def Platform.loadRom (q : Platform) (m : Rom) : Platform :=
  { q with
    rom := some m
    regions := match q.regions with
      | r0 :: r1 :: rest => r0 :: { r1 with buf := m.buf, size := m.size } :: rest
      | rs => rs }

/-- One action of the host between two machine cycles (70 R390, R394). -/
def State.hostAct (s : State) : HostEvent → State
  | .setControlMode m now => s.setControlMode m now
  | .request r => s.request r
  | .setEf k v => s.setEf k v
  | .setKeys down => { s with plat := { s.plat with keys := down } }
  | .loadByte buf off v =>
    { s with plat := { s.plat with mem := s.plat.mem.write (cellKey buf off.toNat) v } }
  | .loadRom m => { s with plat := s.plat.loadRom m }
  | .swapBoard k => s.swapBoard k
  | .releaseLatch => { s with plat := { s.plat with latch := false } }
  | .setClock f => { s with clock := { s.clock with hz := clampHz f } }

/-- The host's turn before a machine cycle: the next entry of the script, in order, and then the machine assembly drives
the keypad's EF line (log 2, log 16). -/
def State.hostTurn (s : State) : State :=
  match s.env.script with
  | [] => s.driveKeypad
  | evs :: rest => (evs.foldl State.hostAct { s with env := { s.env with script := rest } }).driveKeypad

end Sys2Proof.Machine
end

