-- ==== Sys2Proof/Machine/Cycle.lean ====
section
/-! DEFINITION. The cycle-state machine (spec/40_cycle_machine.md): Fetch, Execute with idle, DMA, Interrupt, the
arbitration between them, one machine cycle, and the clock pulses of a `step(now)` call. -/

namespace Sys2Proof.Machine

/-! ## Arbitration -/

/-- `Accept(d)`: the request leaves its slot and becomes one descriptor per byte (40 R133). -/
def State.accept (s : State) (d : Dir) : State :=
  match s.stepper.slot d with
  | some r =>
    { s with stepper := { s.stepper.setSlot d none with queue := List.replicate r.count ⟨d, r.ctx, r.cb⟩ } }
  | none => s

/-- Writes the cycle state (10 R43). -/
def State.goto (s : State) (c : CycleState) : State := { s with stepper := { s.stepper with cycle := c } }

/-- `Arbitrate()`: DMA-in, then DMA-out, then the interrupt request, then Fetch (40 R131). -/
def State.arbitrate (s : State) : State :=
  if s.stepper.slotIn.isSome then (s.accept .input).goto .dma
  else if s.stepper.slotOut.isSome then (s.accept .output).goto .dma
  else if s.stepper.intPending then s.interruptDecision
  else s.goto .fetch

/-! ## Fetch -/

/-- How many execute cycles an opcode takes (40 R126, 00 R9 `EXEC_CYCLES`). -/
def execCycles (op : Byte) : Nat := if highNibble op = 0xC then 2 else 1

/-- `FetchCycle()`, for a value of `P_IDL_ADVANCES` (40 R126). -/
def State.fetchCycle (s : State) (idlAdvances : Bool) : State :=
  let op := s.memRead s.pc
  let s1 := (s.afterRead s.pc).setPc (if op ≠ 0 ∨ idlAdvances then inc16 s.pc else s.pc)
  { s1 with
    cpu := { s1.cpu with i := highNibble op, n := lowNibble op }
    stepper := { s1.stepper with
      cycle := .execute, execLeft := execCycles op, idle := decide (op = 0), first := true } }

/-! ## Execute -/

/-- `IdleCycle()` (40 R130). -/
def State.idleCycle (s : State) : State :=
  if s.stepper.slotIn.isSome || s.stepper.slotOut.isSome || s.stepper.intPending then
    ({ s with stepper := { s.stepper with idle := false } } : State).arbitrate
  else s

/-- The instruction of an execute cycle: the opcode that I and N hold, and the bytes that the cycle reads at R[P] where
the opcode has operand bytes (30 R100, R102; 20 R91; log 19). -/
def State.operandInstr (s : State) : Instr :=
  instrOf (packNibbles s.cpu.i s.cpu.n) (s.memRead s.pc) ((s.afterRead s.pc).memRead (inc16 s.pc))

/-- The count-down of an execute cycle, and the arbitration after the last one (40 R128, R129). -/
def State.finishExecute (s : State) : State :=
  let left := s.stepper.execLeft - 1
  let s1 : State := { s with stepper := { s.stepper with first := false, execLeft := left } }
  if left = 0 then s1.arbitrate else s1

/-- Continues with the state of a `next`. -/
def andThen (o : Result) (f : State → Result) : Result :=
  match o with
  | .next s => f s
  | .fault e => .fault e
  | .refused e => .refused e

/-- `ExecuteCycle()` (40 R128). -/
def State.executeCycle (s : State) : Result :=
  if s.stepper.idle then .next s.idleCycle
  else if s.stepper.first then andThen (exec s.operandInstr s) fun t => .next t.finishExecute
  else .next s.finishExecute

/-! ## DMA -/

/-- The byte an inbound transfer's callback supplies (40 R134; for the video controller's callback, log 17). -/
def State.transferByte (s : State) (d : Descriptor) : Byte × State :=
  match d.cb with
  | .null => (0, s)
  | .host => ((s.emit true (.dmaIn d.ctx)).react).supply
  | .video => s.supply

/-- What an outbound transfer's callback does with the byte (40 R135, 60 R327). -/
def State.deliver (s : State) (d : Descriptor) (b : Byte) : State :=
  match d.cb with
  | .null => s
  | .host => (s.emit true (.dmaOut d.ctx b)).react
  | .video => s.dmaOutByte d.ctx b

/-- One byte through R[0] (40 R134, R135, R138). -/
def State.transfer (s : State) (d : Descriptor) : State :=
  match d.dir with
  | .input =>
    let r := s.transferByte d
    (r.2.memWrite (r.2.reg 0) r.1).setReg 0 (inc16 (r.2.reg 0))
  | .output =>
    let a := s.reg 0
    ((s.afterRead a).setReg 0 (inc16 a)).deliver d (s.memRead a)

/-- `DmaCycle()`: one descriptor, and the arbitration when it was the last (40 R134 to R136). An empty queue, which no
run reaches in the DMA state, arbitrates (log 17). -/
def State.dmaCycle (s : State) : State :=
  match s.stepper.queue with
  | [] => s.arbitrate
  | d :: rest =>
    let s1 := ({ s with stepper := { s.stepper with queue := rest } } : State).transfer d
    if s1.stepper.queue = [] then s1.arbitrate else s1

/-! ## The machine cycle -/

/-- `CpuStep()` (40 R125). -/
def State.cpuStep (s : State) : Result :=
  match s.stepper.cycle with
  | .fetch => .next (s.fetchCycle Config.idlAdvances)
  | .execute => s.executeCycle
  | .dma => .next s.dmaCycle
  | .interrupt => .next s.interruptEntry

/-- `QOut(Q)`: the host is told Q at every machine cycle, changed or not (40 R123, 45 R295). -/
def State.qOut (s : State) : State :=
  if s.plat.wiring.attached.qOut then (s.emit true (.q s.cpu.q)).react else s

/-- `MachineCycle()`: Q, then the video controller, then the CPU (40 R123). -/
def State.machineCycle (s : State) : Result := s.qOut.syncTick.cpuStep

/-- The host's turn, and then, in Run, one machine cycle: no pulse is consumed outside Run (40 R124, 70 R382, R383). -/
def State.boundary (s : State) : Result :=
  let s1 := s.hostTurn
  if s1.clock.mode = .run then s1.machineCycle else .next s1

/-- An instruction has been fetched and is not done: the machine is in Run, in Execute, and not idle (log 1). -/
def State.midInstruction (s : State) : Bool :=
  decide (s.clock.mode = .run) && decide (s.stepper.cycle = .execute) && !s.stepper.idle

/-- At most `fuel` further boundaries, until the instruction in progress is done (log 1). -/
def State.finishInstruction : Nat → State → Result
  | 0, s => .next s
  | fuel + 1, s => if s.midInstruction then andThen s.boundary (finishInstruction fuel) else .next s

/-! ## Clock pulses and `step(now)` -/

/-- `ClockPulse()`: every 8th pulse is a machine cycle (40 R122). -/
def State.clockPulse (s : State) : Result :=
  let phase := (s.clock.pulsePhase + 1) % Config.pulsesPerCycle
  let s1 : State := { s with clock := { s.clock with pulsePhase := phase } }
  if phase = 0 then s1.machineCycle else .next s1

/-- Consumes `n` pulses of the accumulator, one by one (40 R120). -/
def State.pulses : Nat → State → Result
  | 0, s => .next s
  | n + 1, s =>
    let s1 : State := { s with clock := { s.clock with acc := s.clock.acc - 1 / s.clock.hz.val } }
    andThen s1.clockPulse (pulses n)

/-- How many whole pulses the accumulator holds (40 R120). -/
def Clock.pulsesDue (c : Clock) : Nat := (c.acc * c.hz.val).floor.toNat

/-- The elapsed time a call counts: not negative, and at most `MAX_DELTA` (40 R120). -/
def Clock.delta (c : Clock) (now : Rat) : Rat := min (max (now - c.lastTime) 0) Config.maxDelta

/-- `step(now)`, the host's call (40 R120, R121). It runs machine cycles alone, without turns of the script. -/
def State.stepCall (s : State) (now : Rat) : Result :=
  let acc := s.clock.acc + s.clock.delta now
  match s.clock.mode with
  | .run =>
    let s1 : State := { s with clock := { s.clock with lastTime := now, acc := acc } }
    State.pulses s1.clock.pulsesDue s1
  | .pause => .next { s with clock := { s.clock with lastTime := now, acc := acc } }
  | .reset | .load => .next { s with clock := { s.clock with lastTime := now } }

end Sys2Proof.Machine
end

