-- ==== Sys2Proof/Machine/Step.lean ====
section
/-! DEFINITION. One step of the model (log 1), and the placing of an instruction where the next step fetches (log 3). -/

namespace Sys2Proof.Machine

/-- One step: one turn of the host and, in Run, one machine cycle; a step that fetches or resumes an instruction also
runs the rest of its machine cycles, each after its own turn of the host. So in Run a step is a whole instruction, one
idle cycle, one DMA byte or one interrupt entry (40 R123 to R128; log 1). -/
def step (s : State) : Host.Outcome State Fault Refusal :=
  andThen s.boundary (State.finishInstruction 2)

/-- Writes a byte into the buffer cell that a read of `a` returns in the state `view`, whatever its access bits. -/
def State.poke (s view : State) (a : Word) (v : Byte) : State :=
  match view.readCell a with
  | some k => { s with plat := { s.plat with mem := s.plat.mem.write k v } }
  | none => s

/-- A machine whose next step fetches: in Run, in the Fetch cycle state, nothing scripted (70 R390, log 3). -/
def State.readyToFetch (s : State) : State :=
  let s1 := if s.clock.mode = .run then s else s.setControlMode .run s.clock.lastTime
  { s1.goto .fetch with env := { s1.env with script := [] } }

/-- `s` with an instruction stored where the next step fetches: the bytes of `w`, first byte at R[P], as many as the
longest instruction has, each in the cell that the instruction's own accesses read it from (log 3). -/
def State.withFetchWord (s : State) (nbits w : Nat) : State :=
  let v := w % 2 ^ nbits
  let s0 := s.readyToFetch
  let a := s0.pc
  let s1 := s0.afterRead a
  let s2 := s1.afterRead (inc16 a)
  ((s0.poke s0 a (BitVec.ofNat 8 v)).poke s1 (inc16 a) (BitVec.ofNat 8 (v / 256))).poke s2 (inc16 (inc16 a))
    (BitVec.ofNat 8 (v / 65536))

end Sys2Proof.Machine
end

