-- ==== Sys2Proof/Safety.lean ====
section
/-! DEFINITION. The terms of the claims: the invariant of the machine, and the frames that say what an instruction
leaves unchanged. -/

namespace Sys2Proof.Machine

/-! ## The invariant -/

/-- A request in a slot asks for at least one byte (10 R47, 40 R132). -/
def slotOk (r : Option DmaRequest) : Bool := r.all fun q => decide (0 < q.count)

/-- The stepper's invariant: descriptors are queued exactly in the DMA state, idle is a state of Execute, an instruction
in progress needs one or two more execute cycles (10 R43, R44, R47, R48). -/
def Stepper.inv (t : Stepper) : Prop :=
  t.execLeft ≤ 2 ∧ (t.cycle = .dma ↔ t.queue ≠ []) ∧ (t.idle = true → t.cycle = .execute) ∧
  (t.cycle = .execute → t.idle = false → 1 ≤ t.execLeft) ∧ slotOk t.slotIn = true ∧ slotOk t.slotOut = true

/-- The video counters stay in their ranges (10 R50). -/
def Video.inv (v : Video) : Prop :=
  v.cycle < Config.lineCycles ∧ v.line < Config.frameLines ∧ v.cursor < Config.displayBytes

/-- Time: the accumulator is not negative, the phase is 0..7, the clock is at most its maximum (10 R46, 70 R386). That the
clock is positive is in its type (92 D21). -/
def Clock.inv (c : Clock) : Prop := 0 ≤ c.acc ∧ c.pulsePhase < Config.pulsesPerCycle ∧ c.hz.val ≤ Config.maxHz.val

/-- The platform: the memory is in canonical form and the divide rate is 1..256 (10 R51). -/
def Platform.inv (q : Platform) : Prop := q.mem.wf ∧ 1 ≤ q.divideRate ∧ q.divideRate ≤ 256

/-- The invariant of the machine. -/
def State.inv (s : State) : Prop := s.stepper.inv ∧ s.video.inv ∧ s.clock.inv ∧ s.plat.inv

/-! ## Frames -/

/-- From `s` to `t` memory was read at the addresses `as` and nothing outside the CPU registers changed, but for the
address-inhibit latch where one of the reads releases it: that is the model's choice (log 7; 20 R85 and 92 D35 leave the
release open, and 20 R74 gives a read no side effect). Every byte of every buffer reads as before; and where the latch
keeps its value, every address reads as before (20 R74). -/
structure ReadFrame (as : List Word) (s t : State) : Prop where
  stepper : t.stepper = s.stepper
  clock : t.clock = s.clock
  video : t.video = s.video
  env : t.env = s.env
  plat : t.plat = { s.plat with
    latch := s.plat.latch && as.all fun a => !s.plat.wiring.releases .memRead a.toNat }
  cells : ∀ k, t.plat.mem.read k = s.plat.mem.read k
  bytes : t.plat.latch = s.plat.latch → ∀ a, t.memRead a = s.memRead a

/-- From `s` to `t` the byte `v` was written at address `a` and nothing else outside the CPU registers changed, but for
what a write hook does to the board and for the address-inhibit latch, whose release by a write is the model's choice
(log 7; 20 R85, 92 D35). A VP590's registers take the write where the selected region has its hook (60 R333). The stored
byte is the one the memory map gives for `a`; every other byte of every buffer reads as before; and where the latch keeps
its value, every address that does not reach the stored byte reads as before (20 R75, R76). -/
structure WriteFrame (a : Word) (v : Byte) (s t : State) : Prop where
  stepper : t.stepper = s.stepper
  clock : t.clock = s.clock
  video : t.video = s.video
  env : t.env = s.env
  plat : t.plat = { s.plat with
    mem := t.plat.mem
    board := t.plat.board
    latch := s.plat.latch && !s.plat.wiring.releases .memWrite a.toNat }
  hooked : ∀ b, (s.select a).bind Region.hook = some .vp590 → s.plat.board = .vp590 b →
    t.plat.board = .vp590 (b.written a v)
  noHook : ((s.select a).bind Region.hook = none ∨ ∀ b, s.plat.board ≠ .vp590 b) → t.plat.board = s.plat.board
  stored : s.plat.mem.wf → ∀ k, s.writeCell a = some k → t.plat.mem.read k = v
  cells : s.plat.mem.wf → ∀ k, s.writeCell a ≠ some k → t.plat.mem.read k = s.plat.mem.read k
  bytes : s.plat.mem.wf → t.plat.latch = s.plat.latch →
    ∀ b, (s.readCell b = none ∨ s.readCell b ≠ s.writeCell a) → t.memRead b = s.memRead b

/-- Between `s` and `t` only R[n] of the sixteen registers may differ. -/
def OnlyReg (n : Nibble) (s t : State) : Prop := ∀ m, m ≠ n → t.reg m = s.reg m

/-- The answer is a next state with the property. -/
def Completes (o : Result) (P : State → Prop) : Prop := ∃ t, o = .next t ∧ P t

/-! ## How an instruction is encoded and dispatched -/

/-- `s` with I and N holding an opcode byte (10 R37). -/
def State.withOpcode (s : State) (op : Byte) : State :=
  { s with cpu := { s.cpu with i := highNibble op, n := lowNibble op } }

/-- `i` is the one-byte instruction of opcode `op`: so it is encoded, and so an execute cycle dispatches (30 R100, R101). -/
def OneByte (op : Byte) (i : Instr) : Prop :=
  encode i = [op] ∧ ∀ s : State, (s.withOpcode op).operandInstr = i

/-- `mk n` is the instruction with the high nibble `hi` and the register number n (format `opN`). -/
def RegisterForm (hi : Nibble) (mk : Nat → Instr) : Prop := ∀ n : Nibble, OneByte (hi ++ n) (mk n.toNat)

/-- `mk k` is the two-byte instruction of opcode `op` whose second byte is k, read at R[P] by the execute cycle (formats
`imm8` and `sbr`, 30 R102 (b), (c)). -/
def TwoByte (op : Byte) (mk : Byte → Instr) : Prop :=
  (∀ k, encode (mk k) = [op, k]) ∧ ∀ s : State, (s.withOpcode op).operandInstr = mk (s.memRead s.pc)

/-- `mk hl` is the three-byte instruction of opcode `op` whose target has its high byte at R[P] and its low byte at the
next address (format `lbr`, 30 R102 (d)). -/
def ThreeByte (op : Byte) (mk : Word → Instr) : Prop :=
  (∀ h l : Byte, encode (mk (h ++ l)) = [op, h, l]) ∧
  ∀ s : State, (s.withOpcode op).operandInstr = mk (s.memRead s.pc ++ (s.afterRead s.pc).memRead (s.pc + 1))

/-! ## The shapes of the per-instruction claims -/

/-- `i` loads D from the address that R[n] holds, and changes nothing else. -/
def LoadsFrom (i : Instr) (n : State → Nibble) : Prop :=
  ∀ s, Completes (exec i s) fun t =>
    t.cpu = { s.cpu with d := s.memRead (s.reg (n s)) } ∧ ReadFrame [s.reg (n s)] s t

/-- `i` loads D from the address that R[n] holds and increments R[n], and changes nothing else. -/
def LoadsAdvancing (i : Instr) (n : State → Nibble) : Prop :=
  ∀ s, Completes (exec i s) fun t =>
    t.cpu = { s.cpu with r := t.cpu.r, d := s.memRead (s.reg (n s)) } ∧
    t.reg (n s) = s.reg (n s) + 1 ∧ OnlyReg (n s) s t ∧ ReadFrame [s.reg (n s)] s t

/-- `i` writes `v` to D, reading nothing, and changes nothing else. -/
def SetsD (i : Instr) (v : State → Byte) : Prop :=
  ∀ s, Completes (exec i s) fun t => t.cpu = { s.cpu with d := v s } ∧ ReadFrame [] s t

/-- `i` writes `v` to R[n], reading nothing, and changes nothing else. -/
def SetsReg (i : Instr) (n : State → Nibble) (v : State → Word) : Prop :=
  ∀ s, Completes (exec i s) fun t =>
    t.cpu = { s.cpu with r := t.cpu.r } ∧ t.reg (n s) = v s ∧ OnlyReg (n s) s t ∧ ReadFrame [] s t

/-- `i` reads M at R[X], writes D and, where P says so, DF, and changes nothing else. -/
def MemoryAlu (i : Instr) (P : State → Byte → State → Prop) : Prop :=
  ∀ s, Completes (exec i s) fun t =>
    P s (s.memRead (s.reg s.cpu.x)) t ∧ t.cpu = { s.cpu with d := t.cpu.d, df := t.cpu.df } ∧
    ReadFrame [s.reg s.cpu.x] s t

/-- `mk k` takes the immediate k at R[P], moves R[P] past it, writes D and, where P says so, DF, and changes nothing
else. -/
def ImmediateAlu (mk : Byte → Instr) (P : State → Byte → State → Prop) : Prop :=
  ∀ k s, Completes (exec (mk k) s) fun t =>
    P s k t ∧ t.cpu = { s.cpu with r := t.cpu.r, d := t.cpu.d, df := t.cpu.df } ∧
    t.reg s.cpu.p = s.reg s.cpu.p + 1 ∧ OnlyReg s.cpu.p s t ∧ ReadFrame [s.reg s.cpu.p] s t

/-- D is the sum modulo 256, and DF the carry out of 8 bits; in the corner of 43 R193, DF is the parameter's value. -/
def IsSum (a b : Byte) (cin : Bool) (t : State) : Prop :=
  t.cpu.d.toNat = (a.toNat + b.toNat + cin.toNat) % 256 ∧
  t.cpu.df = if b.toNat + cin.toNat ≤ 255 then decide (256 ≤ a.toNat + b.toNat + cin.toNat)
    else decide (Config.dfCorner = .trueCarry)

/-- D is the difference m - b - borrow modulo 256, and DF is set when there is no borrow; in the corner of 43 R193, DF is
the parameter's value. -/
def IsDifference (m b : Byte) (borrow : Bool) (t : State) : Prop :=
  (t.cpu.d.toNat : Int) = ((m.toNat : Int) - b.toNat - borrow.toNat) % 256 ∧
  t.cpu.df = if b.toNat + borrow.toNat ≤ 255 then decide (b.toNat + borrow.toNat ≤ m.toNat)
    else decide (Config.dfCorner = .wrapped)

/-- D is `v`, and DF keeps its value. -/
def IsLogic (v : Byte) (s t : State) : Prop := t.cpu.d = v ∧ t.cpu.df = s.cpu.df

/-- `mk a` branches within the page of its operand byte when the condition holds, and passes that byte when not. -/
def BranchesShort (mk : Byte → Instr) (cond : State → Bool) : Prop :=
  ∀ a s, Completes (exec (mk a) s) fun t =>
    t.cpu = { s.cpu with r := t.cpu.r } ∧
    t.reg s.cpu.p = (if cond s then (s.reg s.cpu.p &&& 0xFF00) ||| a.setWidth 16 else s.reg s.cpu.p + 1) ∧
    OnlyReg s.cpu.p s t ∧ ReadFrame [s.reg s.cpu.p] s t

/-- `mk hl` branches to hl when the condition holds, and passes the two target bytes unread when not. -/
def BranchesLong (mk : Word → Instr) (cond : State → Bool) : Prop :=
  ∀ hl s, Completes (exec (mk hl) s) fun t =>
    t.cpu = { s.cpu with r := t.cpu.r } ∧
    t.reg s.cpu.p = (if cond s then hl else s.reg s.cpu.p + 2) ∧ OnlyReg s.cpu.p s t ∧
    ReadFrame (if cond s then [s.reg s.cpu.p, s.reg s.cpu.p + 1] else []) s t

/-- `i` skips two bytes, unread, when the condition holds. -/
def SkipsLong (i : Instr) (cond : State → Bool) : Prop :=
  SetsReg i (fun s => s.cpu.p) fun s => if cond s then s.reg s.cpu.p + 2 else s.reg s.cpu.p

/-- What an instruction never changes of the cycle stepper (40 R128). -/
def SameCycle (s t : State) : Prop :=
  t.stepper.cycle = s.stepper.cycle ∧ t.stepper.execLeft = s.stepper.execLeft ∧ t.stepper.idle = s.stepper.idle ∧
  t.stepper.first = s.stepper.first ∧ t.stepper.queue = s.stepper.queue

/-- `i` gives the byte at R[X] to port n and increments R[X]. Of the CPU registers only R[X] and, through the port's
device, an EF bit change; no byte of memory changes. -/
def SendsToPort (i : Instr) (n : Port) : Prop :=
  ∀ s, Completes (exec i s) fun t =>
    t = ((s.afterRead (s.reg s.cpu.x)).setReg s.cpu.x (s.reg s.cpu.x + 1)).portOut n (s.memRead (s.reg s.cpu.x)) ∧
    t.reg s.cpu.x = s.reg s.cpu.x + 1 ∧ OnlyReg s.cpu.x s t ∧
    t.cpu = { s.cpu with r := t.cpu.r, ef := t.cpu.ef } ∧
    (∀ k, t.plat.mem.read k = s.plat.mem.read k) ∧ SameCycle s t ∧ t.clock = s.clock

/-- `i` takes a byte from port n, stores it at R[X] and loads it into D; R[X] and every other CPU register keep their
values, and the stored byte is the only byte of memory that changes. -/
def TakesFromPort (i : Instr) (n : Port) : Prop :=
  ∀ s, Completes (exec i s) fun t =>
    t.cpu = { s.cpu with d := (s.portIn n).1 } ∧ WriteFrame (s.reg s.cpu.x) (s.portIn n).1 (s.portIn n).2 t ∧
    (s.portIn n).2.plat.mem = s.plat.mem ∧ SameCycle s t ∧ t.clock = s.clock

/-! ## Runs at the grain of machine cycles and pulses -/

/-- `n` machine cycles, without turns of the host's script. -/
def State.cycles : Nat → State → Result
  | 0, s => .next s
  | n + 1, s => andThen s.machineCycle (cycles n)

/-- `n` clock pulses. -/
def State.clockPulses : Nat → State → Result
  | 0, s => .next s
  | n + 1, s => andThen s.clockPulse (clockPulses n)

/-- How many transfer callbacks of the host's have been called. -/
def transferCalls (out : List Output) : Nat :=
  out.countP fun o => match o with
    | .dmaIn _ | .dmaOut _ _ => true
    | _ => false

/-- The instructions that write DF (10 R35). -/
def writesDf : Instr → Bool
  | .add | .adi _ | .adc | .adci _ | .sd | .sdi _ | .sdb | .sdbi _ | .sm | .smi _ | .smb | .smbi _
  | .shr | .shrc | .shl | .shlc => true
  | _ => false

/-- The instructions that write P (10 R31). -/
def writesP : Instr → Bool
  | .sep _ | .ret | .dis => true
  | _ => false

/-- The instructions that write X (10 R32). -/
def writesX : Instr → Bool
  | .sex _ | .ret | .dis | .mark => true
  | _ => false

/-- `s` with another value in B (10 R36). -/
def State.withB (s : State) (b : Byte) : State := { s with cpu := { s.cpu with b := b } }

end Sys2Proof.Machine
end

