-- ==== Sys2Proof/Certificates/Slice0/Obligations.lean ====
section
/-! DEFINITION. The statements for the provers. Each names the rules of spec/ it formalises, or says that it is derived. -/

open Sys2Proof Sys2Proof.Machine

/-! ## Encoding -/

/-- Derived (30 R101 to R104): a well-formed instruction is decoded from its own bytes, whatever follows them. -/
def Obligations.DecodeAfterEncodeIsIdentity : Prop :=
  ∀ (i : Instr) (rest : List Byte), i.wellFormed = true → decode (encode i ++ rest) = .ok (i, rest)

/-- Derived (30 R103, R104): every opcode byte selects a well-formed instruction, and encoding it gives back the opcode
and its operand bytes, one, two or three bytes in all. -/
def Obligations.EncodeAfterDecodeIsIdentity : Prop :=
  ∀ op b1 b2 : Byte, (instrOf op b1 b2).wellFormed = true ∧
    encode (instrOf op b1 b2) = [op, b1, b2].take (1 + operandCount op) ∧
    (encode (instrOf op b1 b2)).length = 1 + operandCount op

/-- Derived (30 R104, 95): words written out from the opcode map decode to the instructions they stand for. -/
def Obligations.SampleWordsDecode : Prop :=
  decode [0xF8, 0x05, 0xA1] = .ok (.ldi 0x05, [0xA1]) ∧ decode [0xA1] = .ok (.plo 1, []) ∧
  decode [0x07] = .ok (.ldn7, []) ∧ decode [0x4F] = .ok (.lda 15, []) ∧ decode [0x3A, 0x03] = .ok (.bnz 0x03, []) ∧
  decode [0xC0, 0x12, 0x34] = .ok (.lbr 0x1234, []) ∧ decode [0xC8] = .ok (.lskp, []) ∧
  decode [0x62] = .ok (.out2, []) ∧ decode [0x68] = .ok (.inp0, []) ∧ decode [0x6B] = .ok (.inp3, []) ∧
  decode [0x7F, 0xFF] = .ok (.smbi 0xFF, []) ∧ decode [0xF4] = .ok (.add, []) ∧ decode [0x00] = .ok (.idl, [])

/-! ## The step -/

/-- Derived (40 R123 to R129, log 1): in Run, with nothing scripted, a step that fetches an opcode byte other than 0x00
runs `exec` of the decoded instruction in its execute cycle, and then counts down and arbitrates. `f` is the state after
the fetch cycle, `e` the state in which the execute cycle runs: its R[P] is one past the opcode, and memory is as before. -/
def Obligations.StepRunsDecodedInstruction : Prop :=
  ∀ (s : State) (i : Instr) (rest : List Byte),
    s.env.script = [] → s.clock.mode = .run → s.stepper.cycle = .fetch → s.memRead s.pc ≠ 0 →
    let f := s.driveKeypad.qOut.syncTick.fetchCycle Config.idlAdvances
    let e := f.driveKeypad.qOut.syncTick
    decode [s.memRead s.pc, e.memRead e.pc, (e.afterRead e.pc).memRead (e.pc + 1)] = .ok (i, rest) →
    i.wellFormed = true →
    (step s = andThen (exec i e) fun t => State.finishInstruction 1 t.finishExecute) ∧
    e.pc = s.pc + 1 ∧ OnlyReg s.cpu.p s e ∧ e.cpu = { s.cpu with r := e.cpu.r, i := e.cpu.i, n := e.cpu.n, ef := e.cpu.ef } ∧
    e.plat.mem = s.plat.mem

/-- Derived (45 R280, 40 R126, R130): IDL's own action does nothing; a step that fetches 0x00 moves R[P] past it and
leaves the machine idle in Execute. -/
def Obligations.IdlIdles : Prop :=
  OneByte 0x00 .idl ∧ (∀ s, exec .idl s = .next s) ∧
  ∀ s : State, s.env.script = [] → s.clock.mode = .run → s.stepper.cycle = .fetch → s.memRead s.pc = 0 →
    Completes (step s) fun t =>
      t.stepper.idle = true ∧ t.stepper.cycle = .execute ∧ t.pc = s.pc + 1 ∧ OnlyReg s.cpu.p s t

/-- Derived (40 R139, 60 R300): no step faults or refuses. -/
def Obligations.StepAlwaysAnswers : Prop := ∀ s : State, ∃ t, step s = .next t

/-- Derived (40 R126): the fetch cycle, under either value of `P_IDL_ADVANCES`; the CPU step of a Fetch cycle is the one
with `P_IDL_ADVANCES` = true. The latch clause of `ReadFrame` for
the fetch's read is the model's choice (log 7; 20 R85, 92 D35). -/
def Obligations.FetchReadsOpcodeAndAdvances : Prop :=
  (∀ s : State, s.stepper.cycle = .fetch → s.cpuStep = .next (s.fetchCycle true)) ∧
  ∀ (s : State) (adv : Bool), let op := s.memRead s.pc; let t := s.fetchCycle adv
    t.cpu = { s.cpu with r := t.cpu.r, i := op.extractLsb' 4 4, n := op.extractLsb' 0 4 } ∧
    t.reg s.cpu.p = (if op ≠ 0 ∨ adv = true then s.pc + 1 else s.pc) ∧ OnlyReg s.cpu.p s t ∧
    t.stepper = { s.stepper with
      cycle := .execute, execLeft := (if op.extractLsb' 4 4 = (0xC : Nibble) then 2 else 1)
      idle := decide (op = 0), first := true } ∧
    ReadFrame [s.pc] s { t with stepper := s.stepper }

/-- Derived (40 R126 to R128, 70 R410): with opcode byte `op` at R[P], a fetched instruction takes one fetch cycle and
one execute cycle, or two for the opcodes 0xC0 to 0xCF; the machine is in Execute after each cycle but the last. And the
CPU step of an execute cycle (40 R128, R129): the action runs in the first one, the last one arbitrates, so that DMA and
interrupt requests are taken there, and the first of two only counts. -/
def Obligations.InstructionTakesTwoOrThreeCycles : Prop :=
  (∀ s : State, s.stepper.cycle = .fetch → s.memRead s.pc ≠ 0 →
    let n := if 0xC0 ≤ s.memRead s.pc ∧ s.memRead s.pc ≤ 0xCF then 3 else 2
    (∀ k, 0 < k → k < n → Completes (s.cycles k) fun t => t.stepper.cycle = .execute ∧ t.stepper.idle = false) ∧
    Completes (s.cycles n) fun t => t.stepper.cycle ≠ .execute ∧ t.stepper.execLeft = 0 ∧ t.stepper.first = false) ∧
  ∀ s : State, s.stepper.cycle = .execute → s.stepper.idle = false →
    ∃ u : State, (if s.stepper.first = true then exec s.operandInstr s = .next u else u = s) ∧
      (s.stepper.execLeft = 1 → s.cpuStep =
        .next ({ u with stepper := { u.stepper with first := false, execLeft := 0 } } : State).arbitrate) ∧
      (s.stepper.execLeft = 2 → s.cpuStep =
        .next { u with stepper := { u.stepper with first := false, execLeft := 1 } })

/-- Derived (40 R128): an instruction's action never changes the cycle state, exec_left, idle, first or the DMA queue. -/
def Obligations.ExecLeavesCycleStateAlone : Prop :=
  ∀ (i : Instr) (s t : State), exec i s = .next t → SameCycle s t

/-! ## Loads and stores -/

/-- Derived (41 R160): the fifteen LDN. The latch clause of `ReadFrame` is the model's choice (log 7; 20 R85,
92 D35). -/
def Obligations.LdnLoadsThroughN : Prop :=
  (OneByte 0x01 .ldn1 ∧ LoadsFrom .ldn1 fun _ => 1) ∧ (OneByte 0x02 .ldn2 ∧ LoadsFrom .ldn2 fun _ => 2) ∧
  (OneByte 0x03 .ldn3 ∧ LoadsFrom .ldn3 fun _ => 3) ∧ (OneByte 0x04 .ldn4 ∧ LoadsFrom .ldn4 fun _ => 4) ∧
  (OneByte 0x05 .ldn5 ∧ LoadsFrom .ldn5 fun _ => 5) ∧ (OneByte 0x06 .ldn6 ∧ LoadsFrom .ldn6 fun _ => 6) ∧
  (OneByte 0x07 .ldn7 ∧ LoadsFrom .ldn7 fun _ => 7) ∧ (OneByte 0x08 .ldn8 ∧ LoadsFrom .ldn8 fun _ => 8) ∧
  (OneByte 0x09 .ldn9 ∧ LoadsFrom .ldn9 fun _ => 9) ∧ (OneByte 0x0A .ldn10 ∧ LoadsFrom .ldn10 fun _ => 10) ∧
  (OneByte 0x0B .ldn11 ∧ LoadsFrom .ldn11 fun _ => 11) ∧ (OneByte 0x0C .ldn12 ∧ LoadsFrom .ldn12 fun _ => 12) ∧
  (OneByte 0x0D .ldn13 ∧ LoadsFrom .ldn13 fun _ => 13) ∧ (OneByte 0x0E .ldn14 ∧ LoadsFrom .ldn14 fun _ => 14) ∧
  (OneByte 0x0F .ldn15 ∧ LoadsFrom .ldn15 fun _ => 15)

/-- Derived (41 R161): LDA. The latch clause of `ReadFrame` is the model's choice (log 7; 20 R85, 92 D35). -/
def Obligations.LdaLoadsAndAdvances : Prop :=
  RegisterForm 0x4 .lda ∧ ∀ n : Nibble, LoadsAdvancing (.lda n.toNat) fun _ => n

/-- Derived (41 R162 to R164): LDX, LDXA and LDI. The latch clause of `ReadFrame` is the model's choice
(log 7; 20 R85, 92 D35). -/
def Obligations.LdxLdxaAndLdiLoad : Prop :=
  OneByte 0xF0 .ldx ∧ (LoadsFrom .ldx fun s => s.cpu.x) ∧
  OneByte 0x72 .ldxa ∧ (LoadsAdvancing .ldxa fun s => s.cpu.x) ∧
  TwoByte 0xF8 .ldi ∧ ImmediateAlu .ldi fun s k t => IsLogic k s t

/-- Derived (41 R165): STR. The latch clause of `WriteFrame` is the model's choice (log 7; 20 R85, 92 D35). -/
def Obligations.StrStoresThroughN : Prop :=
  RegisterForm 0x5 .str ∧ ∀ (n : Nibble) (s : State), Completes (exec (.str n.toNat) s) fun t =>
    t.cpu = s.cpu ∧ WriteFrame (s.reg n) s.cpu.d s t

/-- Derived (41 R166): STXD. The latch clause of `WriteFrame` is the model's choice (log 7; 20 R85, 92 D35). -/
def Obligations.StxdStoresAndDecrements : Prop :=
  OneByte 0x73 .stxd ∧ ∀ s : State, Completes (exec .stxd s) fun t =>
    t.cpu = { s.cpu with r := t.cpu.r } ∧ t.reg s.cpu.x = s.reg s.cpu.x - 1 ∧ OnlyReg s.cpu.x s t ∧
    WriteFrame (s.reg s.cpu.x) s.cpu.d s t

/-! ## Register operations -/

/-- Stated (42 R170 to R172): INC, DEC and IRX. -/
def Obligations.IncDecIrxCount : Prop :=
  RegisterForm 0x1 .inc ∧ (∀ n : Nibble, SetsReg (.inc n.toNat) (fun _ => n) fun s => s.reg n + 1) ∧
  RegisterForm 0x2 .dec ∧ (∀ n : Nibble, SetsReg (.dec n.toNat) (fun _ => n) fun s => s.reg n - 1) ∧
  OneByte 0x60 .irx ∧ SetsReg .irx (fun s => s.cpu.x) fun s => s.reg s.cpu.x + 1

/-- Stated (42 R173, R174): GLO and GHI. -/
def Obligations.GloGhiReadHalves : Prop :=
  RegisterForm 0x8 .glo ∧ (∀ n : Nibble, SetsD (.glo n.toNat) fun s => (s.reg n).extractLsb' 0 8) ∧
  RegisterForm 0x9 .ghi ∧ ∀ n : Nibble, SetsD (.ghi n.toNat) fun s => (s.reg n).extractLsb' 8 8

/-- Stated (42 R175, R176): PLO and PHI. -/
def Obligations.PloPhiWriteHalves : Prop :=
  RegisterForm 0xA .plo ∧
  (∀ n : Nibble, SetsReg (.plo n.toNat) (fun _ => n) fun s => (s.reg n &&& 0xFF00) ||| s.cpu.d.setWidth 16) ∧
  RegisterForm 0xB .phi ∧
  ∀ n : Nibble, SetsReg (.phi n.toNat) (fun _ => n) fun s => (s.reg n &&& 0x00FF) ||| (s.cpu.d.setWidth 16 <<< 8)

/-- Stated (42 R177, R178): SEP and SEX. -/
def Obligations.SepSexSelectRegisters : Prop :=
  RegisterForm 0xD .sep ∧
  (∀ (n : Nibble) (s : State), Completes (exec (.sep n.toNat) s) fun t =>
    t.cpu = { s.cpu with p := n } ∧ t.pc = s.reg n ∧ ReadFrame [] s t) ∧
  RegisterForm 0xE .sex ∧
  ∀ (n : Nibble) (s : State), Completes (exec (.sex n.toNat) s) fun t =>
    t.cpu = { s.cpu with x := n } ∧ ReadFrame [] s t

/-! ## The ALU -/

/-- Derived (43 R195 to R200): the logic operations, which leave DF alone. The latch clause of `ReadFrame` is the
model's choice (log 7; 20 R85, 92 D35). -/
def Obligations.LogicOperations : Prop :=
  OneByte 0xF1 .or ∧ (MemoryAlu .or fun s m t => IsLogic (s.cpu.d ||| m) s t) ∧
  TwoByte 0xF9 .ori ∧ (ImmediateAlu .ori fun s k t => IsLogic (s.cpu.d ||| k) s t) ∧
  OneByte 0xF2 .and ∧ (MemoryAlu .and fun s m t => IsLogic (s.cpu.d &&& m) s t) ∧
  TwoByte 0xFA .ani ∧ (ImmediateAlu .ani fun s k t => IsLogic (s.cpu.d &&& k) s t) ∧
  OneByte 0xF3 .xor ∧ (MemoryAlu .xor fun s m t => IsLogic (s.cpu.d ^^^ m) s t) ∧
  TwoByte 0xFB .xri ∧ ImmediateAlu .xri fun s k t => IsLogic (s.cpu.d ^^^ k) s t

/-- Derived (43 R201 to R204): D is the sum modulo 256 and DF the true carry, but for the corner of 43 R193.
The latch clause of `ReadFrame` is the model's choice (log 7; 20 R85, 92 D35). -/
def Obligations.Additions : Prop :=
  OneByte 0xF4 .add ∧ (MemoryAlu .add fun s m t => IsSum s.cpu.d m false t) ∧
  TwoByte 0xFC .adi ∧ (ImmediateAlu .adi fun s k t => IsSum s.cpu.d k false t) ∧
  OneByte 0x74 .adc ∧ (MemoryAlu .adc fun s m t => IsSum s.cpu.d m s.cpu.df t) ∧
  TwoByte 0x7C .adci ∧ ImmediateAlu .adci fun s k t => IsSum s.cpu.d k s.cpu.df t

/-- Derived (43 R205 to R212): D is the difference modulo 256 and DF is set when there is no borrow, but for the corner of
43 R193. The latch clause of `ReadFrame` is the model's choice (log 7; 20 R85, 92 D35). -/
def Obligations.Subtractions : Prop :=
  OneByte 0xF5 .sd ∧ (MemoryAlu .sd fun s m t => IsDifference m s.cpu.d false t) ∧
  TwoByte 0xFD .sdi ∧ (ImmediateAlu .sdi fun s k t => IsDifference k s.cpu.d false t) ∧
  OneByte 0x75 .sdb ∧ (MemoryAlu .sdb fun s m t => IsDifference m s.cpu.d (!s.cpu.df) t) ∧
  TwoByte 0x7D .sdbi ∧ (ImmediateAlu .sdbi fun s k t => IsDifference k s.cpu.d (!s.cpu.df) t) ∧
  OneByte 0xF7 .sm ∧ (MemoryAlu .sm fun s m t => IsDifference s.cpu.d m false t) ∧
  TwoByte 0xFF .smi ∧ (ImmediateAlu .smi fun s k t => IsDifference s.cpu.d k false t) ∧
  OneByte 0x77 .smb ∧ (MemoryAlu .smb fun s m t => IsDifference s.cpu.d m (!s.cpu.df) t) ∧
  TwoByte 0x7F .smbi ∧ ImmediateAlu .smbi fun s k t => IsDifference s.cpu.d k (!s.cpu.df) t

/-- Derived (43 R191 to R193): in the corner D is the first operand, and DF is the parameter's value; outside it both
values of the parameter agree. -/
def Obligations.DfFollowsTheCorner : Prop :=
  (∀ (c : DfCorner) (a : Byte), addOp c a 0xFF true = (a, decide (c = .trueCarry)) ∧
    subOp c a 0xFF true = (a, decide (c = .wrapped))) ∧
  ∀ (c c' : DfCorner) (a b : Byte) (cin : Bool), ¬ (b = 0xFF ∧ cin = true) →
    addOp c a b cin = addOp c' a b cin ∧ subOp c a b cin = subOp c' a b cin

/-- Stated (43 R213 to R216): the shifts, which read no memory; DF is the bit shifted out. -/
def Obligations.Shifts : Prop :=
  (OneByte 0xF6 .shr ∧ ∀ s, Completes (exec .shr s) fun t =>
    t.cpu = { s.cpu with d := s.cpu.d >>> 1, df := s.cpu.d.getLsbD 0 } ∧ ReadFrame [] s t) ∧
  (OneByte 0x76 .shrc ∧ ∀ s, Completes (exec .shrc s) fun t =>
    t.cpu = { s.cpu with d := (if s.cpu.df then 0x80 else 0) ||| s.cpu.d >>> 1, df := s.cpu.d.getLsbD 0 } ∧
    ReadFrame [] s t) ∧
  (OneByte 0xFE .shl ∧ ∀ s, Completes (exec .shl s) fun t =>
    t.cpu = { s.cpu with d := s.cpu.d <<< 1, df := s.cpu.d.getLsbD 7 } ∧ ReadFrame [] s t) ∧
  (OneByte 0x7E .shlc ∧ ∀ s, Completes (exec .shlc s) fun t =>
    t.cpu = { s.cpu with d := s.cpu.d <<< 1 ||| (if s.cpu.df then 1 else 0), df := s.cpu.d.getLsbD 7 } ∧
    ReadFrame [] s t)

/-! ## Branches and skips -/

/-- Derived (44 R231 to R238): the short branches of opcodes 0x30 to 0x37, each with its condition.
The latch clause of `ReadFrame` is the model's choice (log 7; 20 R85, 92 D35). -/
def Obligations.ShortBranches : Prop :=
  (TwoByte 0x30 .br ∧ BranchesShort .br fun _ => true) ∧
  (TwoByte 0x31 .bq ∧ BranchesShort .bq fun s => s.cpu.q) ∧
  (TwoByte 0x32 .bz ∧ BranchesShort .bz fun s => decide (s.cpu.d = 0)) ∧
  (TwoByte 0x33 .bdf ∧ BranchesShort .bdf fun s => s.cpu.df) ∧
  (TwoByte 0x34 .b1 ∧ BranchesShort .b1 fun s => s.cpu.ef[0]) ∧
  (TwoByte 0x35 .b2 ∧ BranchesShort .b2 fun s => s.cpu.ef[1]) ∧
  (TwoByte 0x36 .b3 ∧ BranchesShort .b3 fun s => s.cpu.ef[2]) ∧
  (TwoByte 0x37 .b4 ∧ BranchesShort .b4 fun s => s.cpu.ef[3])

/-- Derived (44 R239 to R246): SKP and the short branches of opcodes 0x39 to 0x3F, each with its condition. That SKP does
not read the byte it skips is the model's choice (log 20; 44 R239 allows both).
The latch clause of `ReadFrame` is the model's choice (log 7; 20 R85, 92 D35). -/
def Obligations.ShortBranchesOnTheComplement : Prop :=
  (TwoByte 0x38 .skp ∧ ∀ x, SetsReg (.skp x) (fun s => s.cpu.p) fun s => s.reg s.cpu.p + 1) ∧
  (TwoByte 0x39 .bnq ∧ BranchesShort .bnq fun s => !s.cpu.q) ∧
  (TwoByte 0x3A .bnz ∧ BranchesShort .bnz fun s => decide (s.cpu.d ≠ 0)) ∧
  (TwoByte 0x3B .bnf ∧ BranchesShort .bnf fun s => !s.cpu.df) ∧
  (TwoByte 0x3C .bn1 ∧ BranchesShort .bn1 fun s => !s.cpu.ef[0]) ∧
  (TwoByte 0x3D .bn2 ∧ BranchesShort .bn2 fun s => !s.cpu.ef[1]) ∧
  (TwoByte 0x3E .bn3 ∧ BranchesShort .bn3 fun s => !s.cpu.ef[2]) ∧
  (TwoByte 0x3F .bn4 ∧ BranchesShort .bn4 fun s => !s.cpu.ef[3])

/-- Derived (44 R250, R252 to R255, R261 to R263): the long branches, each with its condition.
The latch clause of `ReadFrame` is the model's choice (log 7; 20 R85, 92 D35). -/
def Obligations.LongBranches : Prop :=
  (ThreeByte 0xC0 .lbr ∧ BranchesLong .lbr fun _ => true) ∧
  (ThreeByte 0xC1 .lbq ∧ BranchesLong .lbq fun s => s.cpu.q) ∧
  (ThreeByte 0xC2 .lbz ∧ BranchesLong .lbz fun s => decide (s.cpu.d = 0)) ∧
  (ThreeByte 0xC3 .lbdf ∧ BranchesLong .lbdf fun s => s.cpu.df) ∧
  (ThreeByte 0xC9 .lbnq ∧ BranchesLong .lbnq fun s => !s.cpu.q) ∧
  (ThreeByte 0xCA .lbnz ∧ BranchesLong .lbnz fun s => decide (s.cpu.d ≠ 0)) ∧
  (ThreeByte 0xCB .lbnf ∧ BranchesLong .lbnf fun s => !s.cpu.df)

/-- Stated (44 R257 to R260, R264 to R267; the action of R256): the long skips, each with its condition, and NOP. -/
def Obligations.LongSkipsAndNop : Prop :=
  (OneByte 0xC4 .nop ∧ ∀ s, exec .nop s = .next s) ∧
  (OneByte 0xC5 .lsnq ∧ SkipsLong .lsnq fun s => !s.cpu.q) ∧
  (OneByte 0xC6 .lsnz ∧ SkipsLong .lsnz fun s => decide (s.cpu.d ≠ 0)) ∧
  (OneByte 0xC7 .lsnf ∧ SkipsLong .lsnf fun s => !s.cpu.df) ∧
  (OneByte 0xC8 .lskp ∧ SkipsLong .lskp fun _ => true) ∧
  (OneByte 0xCC .lsie ∧ SkipsLong .lsie fun s => s.cpu.ie) ∧
  (OneByte 0xCD .lsq ∧ SkipsLong .lsq fun s => s.cpu.q) ∧
  (OneByte 0xCE .lsz ∧ SkipsLong .lsz fun s => decide (s.cpu.d = 0)) ∧
  (OneByte 0xCF .lsdf ∧ SkipsLong .lsdf fun s => s.cpu.df)

/-! ## Input, output and control -/

/-- Derived (45 R281): OUT 1 to OUT 7. What the read and the port access do to the latch is the model's choice (log 7). -/
def Obligations.OutSendsToPort : Prop :=
  (OneByte 0x61 .out1 ∧ SendsToPort .out1 1) ∧ (OneByte 0x62 .out2 ∧ SendsToPort .out2 2) ∧
  (OneByte 0x63 .out3 ∧ SendsToPort .out3 3) ∧ (OneByte 0x64 .out4 ∧ SendsToPort .out4 4) ∧
  (OneByte 0x65 .out5 ∧ SendsToPort .out5 5) ∧ (OneByte 0x66 .out6 ∧ SendsToPort .out6 6) ∧
  (OneByte 0x67 .out7 ∧ SendsToPort .out7 7)

/-- Derived (45 R283): INP 1 to INP 7. The latch clause of `WriteFrame` is the model's choice (log 7; 20 R85, 92 D35). -/
def Obligations.InpTakesFromPort : Prop :=
  (OneByte 0x69 .inp1 ∧ TakesFromPort .inp1 1) ∧ (OneByte 0x6A .inp2 ∧ TakesFromPort .inp2 2) ∧
  (OneByte 0x6B .inp3 ∧ TakesFromPort .inp3 3) ∧ (OneByte 0x6C .inp4 ∧ TakesFromPort .inp4 4) ∧
  (OneByte 0x6D .inp5 ∧ TakesFromPort .inp5 5) ∧ (OneByte 0x6E .inp6 ∧ TakesFromPort .inp6 6) ∧
  (OneByte 0x6F .inp7 ∧ TakesFromPort .inp7 7)

/-- Derived (45 R282, 92 D3): opcode 0x68 is an input from port 0 as the spec sets `P_OP68`, and has no effect under the
alternative; where the port map gives port 0 no device, or with no callback attached, it stores and loads 0x00, whatever
board is installed.
The latch clause of `WriteFrame` is the model's choice (log 7; 20 R85, 92 D35). -/
def Obligations.Opcode68IsInputFromPort0 : Prop :=
  OneByte 0x68 .inp0 ∧ TakesFromPort .inp0 0 ∧ (∀ s : State, s.opcode68 .nop = s) ∧
  ∀ s : State, s.plat.wiring.inp[0] = .nothing ∨ s.plat.wiring.attached.portIn = false →
    (s.portIn 0).1 = 0 ∧ (s.portIn 0).2.plat.board = s.plat.board ∧
    Completes (exec .inp0 s) fun t =>
      t.cpu = { s.cpu with d := 0 } ∧ WriteFrame (s.reg s.cpu.x) 0 (s.portIn 0).2 t

/-- Derived (45 R287, R288): RET and DIS restore X and P from the byte at R[X], pass that byte, and set or clear IE.
The latch clause of `ReadFrame` is the model's choice (log 7; 20 R85, 92 D35). -/
def Obligations.RetAndDisRestore : Prop :=
  OneByte 0x70 .ret ∧ OneByte 0x71 .dis ∧
  ∀ s : State, let a := s.reg s.cpu.x; let b := s.memRead a
    (Completes (exec .ret s) fun t =>
      t.cpu = { s.cpu with r := t.cpu.r, x := b.extractLsb' 4 4, p := b.extractLsb' 0 4, ie := true } ∧
      t.reg s.cpu.x = a + 1 ∧ OnlyReg s.cpu.x s t ∧ ReadFrame [a] s t) ∧
    (Completes (exec .dis s) fun t =>
      t.cpu = { s.cpu with r := t.cpu.r, x := b.extractLsb' 4 4, p := b.extractLsb' 0 4, ie := false } ∧
      t.reg s.cpu.x = a + 1 ∧ OnlyReg s.cpu.x s t ∧ ReadFrame [a] s t)

/-- Derived (45 R291, R292): SAV stores T at R[X]; MARK saves X and P in T and at R[2], whatever X is.
The latch clause of `WriteFrame` is the model's choice (log 7; 20 R85, 92 D35). -/
def Obligations.SavAndMarkStoreT : Prop :=
  OneByte 0x78 .sav ∧
  (∀ s, Completes (exec .sav s) fun t => t.cpu = s.cpu ∧ WriteFrame (s.reg s.cpu.x) s.cpu.t s t) ∧
  OneByte 0x79 .mark ∧
  ∀ s, Completes (exec .mark s) fun t =>
    t.cpu = { s.cpu with r := t.cpu.r, t := s.cpu.x ++ s.cpu.p, x := s.cpu.p } ∧
    t.reg 2 = s.reg 2 - 1 ∧ OnlyReg 2 s t ∧ WriteFrame (s.reg 2) (s.cpu.x ++ s.cpu.p) s t

/-- Stated (45 R293, R294): REQ and SEQ, which change Q alone; and every machine cycle that runs reports to the host the Q
it started with, once, whether or not Q changed. -/
def Obligations.ReqAndSeqWriteQ : Prop :=
  OneByte 0x7A .req ∧
  (∀ s, Completes (exec .req s) fun t => t.cpu = { s.cpu with q := false } ∧ ReadFrame [] s t) ∧
  OneByte 0x7B .seq ∧
  (∀ s, Completes (exec .seq s) fun t => t.cpu = { s.cpu with q := true } ∧ ReadFrame [] s t) ∧
  ∀ s t : State, s.plat.wiring.attached.qOut = true → s.machineCycle = .next t →
    qReports t.env.out = s.cpu.q :: qReports s.env.out

/-! ## Ports and boards -/

/-- Derived (60 R328, R341, R350, R351, 00 R14): what each output device does with the byte, on a port that is not an
installed VP590's background port: the display switch, the key latch with the EF line of the keypad that follows it, the
divider, a device of the host's, which is told the byte and may issue requests, and no device. An output without a
callback is skipped, but that it still counts as an access that may release the address-inhibit latch is the model's
choice (log 7; 00 R14 says that nothing is done). The wiring and the moment at which the keypad's line follows the latch
are log 6 and log 16. -/
def Obligations.OutputDevices : Prop :=
  ∀ (s : State) (n : Port) (b : Byte), (∀ v, s.plat.board ≠ .vp590 v) ∨ Config.vp590BackgroundPort ≠ (.output, n) →
    let t := s.portOut n b
    (s.plat.wiring.attached.portOut = false → t = s.touch .portOut n.toNat) ∧
    (s.plat.wiring.attached.portOut = true →
      (s.plat.wiring.out[n.toNat]'n.isLt = .displayOff →
        t.video = { s.video with display := false, cursor := 0 } ∧ t.cpu = s.cpu ∧ t.stepper = s.stepper) ∧
      (s.plat.wiring.out[n.toNat]'n.isLt = .keyLatch →
        t.plat.keyLatch = b.extractLsb' 0 4 ∧ t.video = s.video ∧ t.stepper = s.stepper ∧
        t.cpu = { s.cpu with ef := t.cpu.ef } ∧ (s.plat.wiring.keypadEf = none → t.cpu = s.cpu) ∧
        ∀ k, s.plat.wiring.keypadEf = some k →
          t.efBit k = t.plat.keyDown ∧ t.plat.keyDown = s.plat.keys.getLsbD (b.extractLsb' 0 4).toNat ∧
          ∀ j, j ≠ k → t.efBit j = s.efBit j) ∧
      (s.plat.wiring.out[n.toNat]'n.isLt = .divider →
        t.plat.divideRate = (if s.plat.board = .vp595 then b.toNat + 1 else s.plat.divideRate) ∧
        t.cpu = s.cpu ∧ t.video = s.video ∧ t.stepper = s.stepper) ∧
      (s.plat.wiring.out[n.toNat]'n.isLt = .external →
        t.env.out = .portOut n b :: s.env.out ∧ t.cpu = s.cpu ∧ t.video = s.video ∧ t.clock = s.clock ∧
        t.plat = { s.plat with latch := t.plat.latch } ∧ (s.env.reactions = [] → t.stepper = s.stepper) ∧
        ∀ rs rest, s.env.reactions = rs :: rest →
          t.stepper = (rs.foldl State.request s).stepper ∧ t.env.reactions = rest) ∧
      (s.plat.wiring.out[n.toNat]'n.isLt = .ignored →
        t = (s.emit true (.portOut n b)).touch .portOut n.toNat))

/-- Derived (45 R283, 60 R351, R302, 00 R14, 92 D18): what each input device supplies and does, on a port that is not
an installed VP590's background port: no device and the display switch supply 0x00, and the second turns the display on;
a device of the host's is told the port, may issue requests, and supplies the next byte of the tape, or a free byte
(log 12). An input without a callback is 0x00; that it still counts as an access that may release the address-inhibit
latch is the model's choice (log 7). In the VIP default wiring, which the model chooses at reset (log 6), only port 1
reaches a device. -/
def Obligations.InputDevices : Prop :=
  ∀ (s : State) (n : Port), (∀ v, s.plat.board ≠ .vp590 v) ∨ Config.vp590BackgroundPort ≠ (.input, n) →
    let b := (s.portIn n).1; let t := (s.portIn n).2
    t.cpu = s.cpu ∧ t.clock = s.clock ∧
    t.plat = { s.plat with latch := s.plat.latch && !s.plat.wiring.releases .portIn n.toNat } ∧
    (s.plat.wiring.attached.portIn = false → b = 0 ∧ t = s.touch .portIn n.toNat) ∧
    (s.plat.wiring.attached.portIn = true → t.env.out = .portIn n :: s.env.out ∧
      (s.plat.wiring.inp[n.toNat]'n.isLt = .nothing →
        b = 0 ∧ t = (s.emit true (.portIn n)).touch .portIn n.toNat) ∧
      (s.plat.wiring.inp[n.toNat]'n.isLt = .displayOn →
        b = 0 ∧ t.video = { s.video with display := true } ∧ t.stepper = s.stepper) ∧
      (s.plat.wiring.inp[n.toNat]'n.isLt = .external →
        t.video = s.video ∧ (∀ c cs, s.env.tape = c :: cs → b = c ∧ t.env.tape = cs ∧ t.env.draws = s.env.draws) ∧
        (s.env.tape = [] → b = Config.freeByte s.env.draws ∧ t.env.tape = [] ∧ t.env.draws = s.env.draws + 1) ∧
        (s.env.reactions = [] → t.stepper = s.stepper) ∧
        ∀ rs rest, s.env.reactions = rs :: rest →
          t.stepper = (rs.foldl State.request s).stepper ∧ t.env.reactions = rest)) ∧
    (s.plat.wiring = Wiring.vip → b = 0 ∧ t.stepper = s.stepper ∧
      t.video = if n = 1 then { s.video with display := true } else s.video)

/-- Derived (60 R352, R340, 20 R72, R86): what a board swap changes. The old VP590 region goes and the new one comes last;
with a VP590 installed, exactly the addresses 0xC000 to 0xDFFF that no earlier region covers reach its write hook, and
every other address is resolved as without it; a VP595 starts at rate 54 (its restart on a swap, and that the audio phase
and the enable flag are kept, is log 14; that no memory stands behind the VP590's region is log 13). A write that a region with the hook receives enables the colour and selects
the resolution by address bit 0x1000 (60 R333, 20 R76), and an access to the background port steps the background colour
(60 R334); the polarity of the bit, the port and the byte it returns are open (log 13). -/
def Obligations.ExpansionBoards : Prop :=
  (∀ (s : State) (k : BoardKind), let t := s.swapBoard k
    let kept := s.plat.regions.filter fun r => decide (r.hook ≠ some .vp590)
    t = { s with plat := { s.plat with
      board := t.plat.board, regions := t.plat.regions
      divideRate := if k = .vp595 then 54 else s.plat.divideRate } } ∧
    t.plat.board = (match k with
      | .none => .none
      | .vp585 => .vp585
      | .vp590 => .vp590 .initial
      | .vp595 => .vp595) ∧
    (k ≠ .vp590 → t.plat.regions = kept) ∧
    (k = .vp590 → ∃ r, t.plat.regions = kept ++ [r] ∧ r.start = 0xC000 ∧ r.stop = 0xDFFF ∧ r.hook = some .vp590)) ∧
  (∀ (s : State) (a : Word), let t := s.swapBoard .vp590
    (0xC000 ≤ a → a ≤ 0xDFFF →
      (∀ r ∈ s.plat.regions, r.hook ≠ some .vp590 → ¬ (r.start ≤ a ∧ a ≤ r.stop)) →
      ∃ r, t.select a = some r ∧ r.hook = some .vp590 ∧
        ∀ v, (t.memWrite a v).plat.board = .vp590 (Vp590.initial.written a v)) ∧
    (¬ (0xC000 ≤ a ∧ a ≤ 0xDFFF) → t.select a = (s.swapBoard .none).select a)) ∧
  (∀ (s : State) (a : Word) (v : Byte) (b : Vp590) (r : Region),
    s.plat.board = .vp590 b → s.select a = some r → r.hook = some .vp590 →
    ∃ b', (s.memWrite a v).plat.board = .vp590 b' ∧ b'.colourEnabled = true ∧ b'.background = b.background ∧
      b'.high = (a.getLsbD 12 == Config.vp590BitSetIsHigh)) ∧
  Config.vp590BackgroundPort.2 ≠ 0 ∧
  ∀ (s : State) (n : Port) (c : Byte) (b : Vp590), s.plat.board = .vp590 b →
    let stepped : Board := .vp590 { b with background := b.background + 1 }
    (s.portOut n c).plat.board = (if s.plat.wiring.attached.portOut = true ∧ Config.vp590BackgroundPort = (.output, n)
      then stepped else s.plat.board) ∧
    (s.portIn n).2.plat.board = (if s.plat.wiring.attached.portIn = true ∧ Config.vp590BackgroundPort = (.input, n)
      then stepped else s.plat.board) ∧
    (s.plat.wiring.attached.portIn = true → Config.vp590BackgroundPort = (.input, n) →
      (s.portIn n).1 = Config.vp590BackgroundByte)

/-! ## Interrupts -/

/-- Derived (60 R303, 92 D9): the interrupt latch. -/
def Obligations.InterruptRequestIsLatched : Prop :=
  ∀ s : State,
    (s.stepper.intPending = true → s.issueInterrupt = s) ∧
    (s.stepper.intPending = false →
      s.issueInterrupt = { s with stepper := { s.stepper with intPending := true, intIe := s.cpu.ie } })

/-- Stated (60 R304): the decision on a pending request, at an arbitration with no DMA request. -/
def Obligations.InterruptDecisionUsesLatchedIe : Prop :=
  ∀ s : State, s.stepper.slotIn = none → s.stepper.slotOut = none → s.stepper.intPending = true →
    s.arbitrate = { s with stepper := { s.stepper with
      intPending := false, cycle := if s.stepper.intIe = true then .interrupt else .fetch } }

/-- Stated (60 R305): the Interrupt cycle. -/
def Obligations.InterruptCycleSavesXAndP : Prop :=
  ∀ s : State, s.stepper.cycle = .interrupt →
    s.cpuStep = .next { s with
      cpu := { s.cpu with t := s.cpu.x ++ s.cpu.p, x := 2, p := 1, ie := false }
      stepper := { s.stepper with cycle := .fetch } }

/-! ## Arbitration, idle and DMA -/

/-- Derived (40 R131, R133): DMA-in, then DMA-out, then the interrupt request, then Fetch; an accepted request leaves its
slot and becomes one descriptor per byte. -/
def Obligations.ArbitrationOrder : Prop :=
  ∀ s : State,
    (∀ r, s.stepper.slotIn = some r → s.arbitrate = { s with stepper := { s.stepper with
      cycle := .dma, slotIn := none, queue := List.replicate r.count ⟨.input, r.ctx, r.cb⟩ } }) ∧
    (s.stepper.slotIn = none → ∀ r, s.stepper.slotOut = some r → s.arbitrate = { s with stepper := { s.stepper with
      cycle := .dma, slotOut := none, queue := List.replicate r.count ⟨.output, r.ctx, r.cb⟩ } }) ∧
    (s.stepper.slotIn = none → s.stepper.slotOut = none → s.stepper.intPending = true →
      s.arbitrate = s.interruptDecision) ∧
    (s.stepper.slotIn = none → s.stepper.slotOut = none → s.stepper.intPending = false →
      s.arbitrate = { s with stepper := { s.stepper with cycle := .fetch } })

/-- Derived (40 R128, R130): while idle, the CPU step of an Execute cycle is the idle cycle: it ends the idle state and
arbitrates when a request is pending, reading no memory and changing no register, and changes nothing when none is. -/
def Obligations.IdleCycleWaitsForRequest : Prop :=
  ∀ s : State,
    (s.stepper.slotIn ≠ none ∨ s.stepper.slotOut ≠ none ∨ s.stepper.intPending = true →
      s.idleCycle = ({ s with stepper := { s.stepper with idle := false } } : State).arbitrate) ∧
    (s.stepper.slotIn = none → s.stepper.slotOut = none → s.stepper.intPending = false → s.idleCycle = s) ∧
    (s.stepper.cycle = .execute → s.stepper.idle = true →
      s.cpuStep = .next s.idleCycle ∧ s.idleCycle = { s with stepper := s.idleCycle.stepper } ∧
      (s.stepper.slotIn ≠ none ∨ s.stepper.slotOut ≠ none ∨ s.stepper.intPending = true →
        s.idleCycle.stepper.idle = false ∧ s.idleCycle.stepper.cycle ≠ .execute))

/-- Derived (40 R132): a DMA request is dropped when it asks for no byte or its slot is occupied, and else fills the slot. -/
def Obligations.DmaRequestFillsEmptySlot : Prop :=
  ∀ (s : State) (r : DmaRequest),
    (r.count = 0 → s.issueDma .input r = s ∧ s.issueDma .output r = s) ∧
    (s.stepper.slotIn ≠ none → s.issueDma .input r = s) ∧ (s.stepper.slotOut ≠ none → s.issueDma .output r = s) ∧
    (r.count ≠ 0 → s.stepper.slotIn = none →
      s.issueDma .input r = { s with stepper := { s.stepper with slotIn := some r } }) ∧
    (r.count ≠ 0 → s.stepper.slotOut = none →
      s.issueDma .output r = { s with stepper := { s.stepper with slotOut := some r } })

/-- Derived (40 R125, R134 to R137): in the DMA cycle state the CPU step is a DMA cycle, which moves one byte through R[0]
and increments it, whatever P is; no other CPU register, exec_left or idle changes. An outbound cycle changes no memory
and hands the byte at R[0] to the descriptor's callback: the host's, or the video controller's, which gives it to the
pixel sink and advances the cursor (60 R327; that the sink's context is the request's is the model's choice, log 17, and so
is the negative scanline of a byte that arrives while the line is below 64, log 22). An inbound one stores
the supplied byte at R[0], 0x00 without a callback (the host's next byte is log 12). Without a callback nothing is called.
The stepper takes the requests that the host's callback issues, and with the last byte it arbitrates (40 R136): a chained
burst, then the interrupt request, then Fetch. The rest of the platform and time are unchanged, but for the latch clauses
of the frames, which are the model's choice (log 7; 20 R85, 92 D35). -/
def Obligations.DmaCycleMovesOneByte : Prop :=
  ∀ (s : State) (d : Descriptor) (rest : List Descriptor), s.stepper.queue = d :: rest → let t := s.dmaCycle
    (s.stepper.cycle = .dma → s.cpuStep = .next t) ∧
    t.cpu = { s.cpu with r := t.cpu.r } ∧ t.reg 0 = s.reg 0 + 1 ∧ OnlyReg 0 s t ∧
    t.stepper.execLeft = s.stepper.execLeft ∧ t.stepper.idle = s.stepper.idle ∧
    (rest ≠ [] → t.stepper.cycle = s.stepper.cycle ∧ t.stepper.queue = rest) ∧
    (let q := if d.cb = .host then (s.env.reactions.headD []).foldl State.request s else s
      ∃ u : State, u.stepper = { q.stepper with queue := rest } ∧ t = if rest = [] then u.arbitrate else u) ∧
    (d.dir = .output → ReadFrame [s.reg 0] s { t with stepper := s.stepper, video := s.video, env := s.env } ∧
      (d.cb = .host → t.env.out = .dmaOut d.ctx (s.memRead (s.reg 0)) :: s.env.out ∧ t.video = s.video) ∧
      (d.cb = .video →
        t.env = { s.env with out := t.env.out } ∧
        t.env.out = (if s.plat.wiring.attached.pixel = true then
          .pixel (s.memRead (s.reg 0)) ((s.video.line : Int) - 64) (s.video.cursor % 8) d.ctx :: s.env.out
          else s.env.out) ∧
        t.video = { s.video with cursor := (s.video.cursor + 1) % 1024 })) ∧
    (d.cb = .null → t.env = s.env ∧ t.video = s.video) ∧
    (d.dir = .input → t.video = s.video ∧ ∃ v,
      WriteFrame (s.reg 0) v s { t with stepper := s.stepper, video := s.video, env := s.env } ∧
      (d.cb = .null → v = 0) ∧
      (d.cb = .host → t.env.out = .dmaIn d.ctx :: s.env.out ∧
        (∀ b bs, s.env.tape = b :: bs → v = b ∧ t.env.tape = bs) ∧
        (s.env.tape = [] → v = Config.freeByte s.env.draws ∧ t.env.draws = s.env.draws + 1)))

/-- Derived (40 R137): a burst of n + 1 queued bytes takes n + 1 consecutive DMA machine cycles, one descriptor each, and
adds n + 1 to R[0]; if the descriptors are the host's, it makes n + 1 callback calls. -/
def Obligations.BurstTakesOneCyclePerByte : Prop :=
  ∀ (n : Nat) (s : State), s.stepper.cycle = .dma → s.stepper.queue.length = n + 1 →
    (∀ k, k ≤ n → Completes (s.cycles k) fun t =>
      t.stepper.cycle = .dma ∧ t.stepper.queue = s.stepper.queue.drop k ∧ t.reg 0 = s.reg 0 + BitVec.ofNat 16 k) ∧
    Completes (s.cycles (n + 1)) fun t =>
      t.reg 0 = s.reg 0 + BitVec.ofNat 16 (n + 1) ∧ t.stepper.cycle ≠ .execute ∧
      (t.stepper.cycle ≠ .dma → t.stepper.queue = []) ∧
      ∀ (d : Dir) (ctx : Nat), s.stepper.queue = List.replicate (n + 1) ⟨d, ctx, .host⟩ →
        transferCalls t.env.out = transferCalls s.env.out + (n + 1)

/-! ## The video controller -/

/-- Derived (60 R321 to R326): the EF bit, the interrupt request, the DMA request and the counters of one `Sync()`. -/
def Obligations.SyncFollowsTheCounters : Prop :=
  ∀ s : State, let c := s.video.cycle; let l := s.video.line; let t := s.sync
    (s.video.display = false → t.cpu = s.cpu ∧ t.stepper = s.stepper) ∧
    (s.video.display = true → c = 0 →
      t.efBit 0 = decide ((60 ≤ l ∧ l ≤ 63) ∨ (188 ≤ l ∧ l ≤ 191)) ∧ ∀ k, k ≠ 0 → t.efBit k = s.efBit k) ∧
    (c ≠ 0 → t.cpu = s.cpu) ∧
    (s.video.display = true → c = 0 → l = 62 → t.stepper = s.issueInterrupt.stepper) ∧
    (s.video.display = true → c = 2 → 64 ≤ l → l ≤ 191 →
      t.stepper = (s.issueDma .output ⟨8, Config.videoCtx, .video⟩).stepper) ∧
    (¬ (c = 0 ∧ l = 62) → ¬ (c = 2 ∧ 64 ≤ l ∧ l ≤ 191) → t.stepper = s.stepper) ∧
    t.env.out = (if c = 0 ∧ l = 192 ∧ s.plat.wiring.attached.present = true then .present :: s.env.out else s.env.out) ∧
    t.video = { s.video with
      cycle := if c + 1 = 14 then 0 else c + 1
      line := if c + 1 = 14 then (if l + 1 = 262 then 0 else l + 1) else l } ∧
    t.plat = s.plat ∧ t.clock = s.clock

/-- Derived (60 R322, R329): the counters are periodic in a frame of 14 × 262 calls, and from line 0, cycle 0 with the
display enabled a frame holds 128 DMA requests, one interrupt request and one present call. -/
def Obligations.FrameIsPeriodic : Prop :=
  (∀ v : Video, v.cycle < 14 → v.line < 262 → Video.advance^[14 * 262] v = v) ∧
  ∀ k : Nat, let v : Video := ⟨true, 0, 0, k⟩
    (List.range (14 * 262)).countP (fun j => (Video.advance^[j] v).requestsDma) = 128 ∧
    (List.range (14 * 262)).countP (fun j => (Video.advance^[j] v).requestsInterrupt) = 1 ∧
    (List.range (14 * 262)).countP (fun j => (Video.advance^[j] v).presents) = 1

/-- Stated (60 R328): `SetDisplay`, with the callbacks that are attached. -/
def Obligations.SetDisplaySwitches : Prop :=
  ∀ s : State,
    s.setDisplay true = { s with video := { s.video with display := true } } ∧
    (s.setDisplay false).video = { s.video with display := false, cursor := 0 } ∧
    (s.setDisplay false).env.out =
      (if s.plat.wiring.attached.present then [.present] else []) ++
      ((if s.plat.wiring.attached.clearFrame then [.clearFrame] else []) ++ s.env.out) ∧
    (s.setDisplay false).cpu = s.cpu ∧ (s.setDisplay false).stepper = s.stepper ∧ (s.setDisplay false).plat = s.plat

/-- Derived (60 R327): the transfer callback of the controller's bursts. That the sink's context is the request's is the
model's choice (log 17), and so is the negative scanline of a byte that arrives while the line is below 64 (log 22). -/
def Obligations.DmaOutByteReachesPixelSink : Prop :=
  ∀ (s : State) (ctx : Nat) (b : Byte), let t := s.dmaOutByte ctx b
    t.video = { s.video with cursor := (s.video.cursor + 1) % 1024 } ∧
    t.env.out = (if s.plat.wiring.attached.pixel then
      .pixel b ((s.video.line : Int) - 64) (s.video.cursor % 8) ctx :: s.env.out else s.env.out) ∧
    t.cpu = s.cpu ∧ t.stepper = s.stepper ∧ t.plat = s.plat ∧ t.clock = s.clock

/-! ## Reset, control modes and time -/

/-- Derived (70 R381, R387, 10 R55, R56): the Reset transition from any state, with `P_RESET_SCOPE` as the spec sets it; and
what `ListedOnly` keeps instead: D, DF, B, T, P, X and the R registers, and nothing else (92 D12, D19). -/
def Obligations.ResetTransitionValues : Prop :=
  ∀ s : State, let t := s.resetTransition Config.resetScope
    t.cpu.d = 0 ∧ t.cpu.df = false ∧ t.cpu.b = 0 ∧ t.cpu.t = 0 ∧ (∀ n, t.reg n = 0) ∧
    t.cpu.p = 0 ∧ t.cpu.x = 0 ∧ t.cpu.i = 0 ∧ t.cpu.n = 0 ∧ t.cpu.q = false ∧ t.cpu.ie = true ∧
    (∀ k, t.efBit k = false) ∧ t.stepper.cycle = .fetch ∧ t.stepper.execLeft = 0 ∧ t.stepper.idle = false ∧
    t.stepper.first = false ∧ t.stepper.slotIn = none ∧ t.stepper.slotOut = none ∧ t.stepper.queue = [] ∧
    t.stepper.intPending = false ∧ t.stepper.intIe = false ∧ t.clock = { s.clock with acc := 0, pulsePhase := 0 } ∧
    t.plat = { s.plat with latch := true } ∧ t.video = s.video ∧ t.env = s.env ∧
    s.resetTransition .listedOnly = { t with cpu := { t.cpu with
      r := s.cpu.r, p := s.cpu.p, x := s.cpu.x, d := s.cpu.d, df := s.cpu.df, b := s.cpu.b, t := s.cpu.t } }

/-- Derived (70 R380, R382 to R385, 40 R124): what each control-mode call does, and that no machine cycle happens outside
Run: such a step is the host's turn alone, and with nothing scripted that turn only drives the keypad's EF line (60 R350;
log 2, log 16). -/
def Obligations.ControlModeCalls : Prop :=
  ∀ (s : State) (now : Rat),
    s.setControlMode .pause now = { s with clock := { s.clock with mode := .pause } } ∧
    s.setControlMode .load now = { s with clock := { s.clock with mode := .load } } ∧
    s.setControlMode .reset now = { s.resetTransition Config.resetScope with
      clock := { s.clock with mode := .reset, acc := 0, pulsePhase := 0 } } ∧
    (s.clock.mode ≠ .reset →
      s.setControlMode .run now = { s with clock := { s.clock with mode := .run, lastTime := now } }) ∧
    (s.clock.mode = .reset →
      s.setControlMode .run now = { s with
        cpu := { s.cpu with x := 0, p := 0, r := s.cpu.r.set 0 0 }
        clock := { s.clock with mode := .run, lastTime := now } }) ∧
    (s.hostTurn.clock.mode ≠ .run → step s = .next s.hostTurn) ∧
    (s.env.script = [] → s.clock.mode ≠ .run → step s = .next s.driveKeypad) ∧
    s.driveKeypad = { s with cpu := { s.cpu with ef := s.driveKeypad.cpu.ef } } ∧
    (s.plat.wiring.keypadEf = none → s.driveKeypad = s) ∧
    ∀ k, s.plat.wiring.keypadEf = some k →
      s.driveKeypad.efBit k = s.plat.keys.getLsbD s.plat.keyLatch.toNat ∧ ∀ j, j ≠ k → s.driveKeypad.efBit j = s.efBit j

/-- Derived (10 R55, 70 R386, R388): construction with a requested frequency, which it clamps and which is positive (92 D21),
the state after reset, and where the machine fetches once the host sets Run. The memory map is the model's choice among
those the spec offers (log 5), and so is the frequency at reset (log 11). -/
def Obligations.ResetStateValues : Prop :=
  (∀ f : Frequency,
    State.construct .allZero f = { State.reset with clock := { State.reset.clock with hz := clampHz f } } ∧
    0 < (clampHz f).val ∧ (clampHz f).val = min f.val 6400000 ∧
    (f.val = 1760900 → State.construct .allZero f = State.reset)) ∧
  State.reset.clock.mode = .reset ∧ State.reset.cpu.ie = true ∧ State.reset.cpu.q = false ∧
  State.reset.stepper.cycle = .fetch ∧ State.reset.video = ⟨false, 0, 0, 0⟩ ∧ State.reset.plat.divideRate = 54 ∧
  State.reset.plat.latch = true ∧ State.reset.plat.keyLatch = 0 ∧ (∀ n, State.reset.reg n = 0) ∧
  ∀ now, (State.reset.setControlMode .run now).pc = 0 ∧ (State.reset.setControlMode .run now).clock.mode = .run

/-- Derived (40 R122): from pulse phase 0, the first seven pulses only count, and the eighth is one machine cycle. -/
def Obligations.EightPulsesAreOneMachineCycle : Prop :=
  ∀ s : State, s.clock.pulsePhase = 0 →
    s.clockPulses 7 = .next { s with clock := { s.clock with pulsePhase := 7 } } ∧ s.clockPulses 8 = s.machineCycle

/-- Derived (40 R120 to R122, 70 R383, R385): `step(now)` counts a clamped delta; in Run it runs as many clock pulses as it
charges the accumulator for, and leaves less than one; in Pause it only accumulates; in Reset and Load it only records the
time. Time is exact (log 11). -/
def Obligations.StepCallAccountsForTime : Prop :=
  ∀ (s : State) (now : Rat), let delta := min (max (now - s.clock.lastTime) 0) (1 / 4)
    (s.clock.mode = .pause →
      s.stepCall now = .next { s with clock := { s.clock with lastTime := now, acc := s.clock.acc + delta } }) ∧
    (s.clock.mode = .reset ∨ s.clock.mode = .load →
      s.stepCall now = .next { s with clock := { s.clock with lastTime := now } }) ∧
    (s.clock.mode = .run → 0 ≤ s.clock.acc → ∃ (n : Nat) (u : State),
      s.clockPulses n = .next u ∧ Completes (s.stepCall now) fun t =>
        t = { u with clock := { u.clock with lastTime := now, acc := s.clock.acc + delta - n / s.clock.hz.val } } ∧
        t.clock.mode = .run ∧ t.clock.hz = s.clock.hz ∧ 0 ≤ t.clock.acc ∧ t.clock.acc < 1 / s.clock.hz.val ∧
        (s.clock.pulsePhase < 8 → t.clock.pulsePhase = (s.clock.pulsePhase + n) % 8))

/-! ## Memory -/

/-- Derived (20 R73, R74): the first region that covers the address answers a read; a refused, unmapped or out-of-range
read returns 0x00, and a read changes nothing. The exception, that an access may release the address-inhibit latch, is
the model's choice (log 7; 20 R85, 92 D35). -/
def Obligations.ReadDispatch : Prop :=
  ∀ (s : State) (a : Word),
    (∀ r, s.select a = some r ↔ ∃ before after, s.plat.map = before ++ r :: after ∧
      (r.start ≤ a ∧ a ≤ r.stop) ∧ ∀ q ∈ before, ¬ (q.start ≤ a ∧ a ≤ q.stop)) ∧
    (s.select a = none → s.memRead a = 0) ∧
    (∀ r, s.select a = some r → s.memRead a =
      if r.canRead = true ∧ a.toNat - r.start.toNat < r.size then
        s.plat.mem.read (cellKey r.buf (a.toNat - r.start.toNat)) else 0) ∧
    ReadFrame [a] s (s.afterRead a)

/-- Derived (20 R75, R77, R85, 60 R302): a write to an address that can be read and written is read back, every other cell keeps
its byte, and while the latch is set region 0 shows the ROM image, read-only. A region with the write bit, readable or not,
stores the byte at the address's offset in its buffer; without a region, without the write bit, or with an offset at or
above the region's size the write is dropped.
The latch clause of `WriteFrame` is the model's choice (log 7; 20 R85, 92 D35). -/
def Obligations.WriteDispatchAndRoundTrip : Prop :=
  ∀ (s : State) (a : Word) (v : Byte), s.plat.mem.wf →
    WriteFrame a v s (s.memWrite a v) ∧ (s.memWrite a v).cpu = s.cpu ∧
    (∀ r, s.select a = some r → r.canRead = true → r.canWrite = true → a.toNat - r.start.toNat < r.size →
      (s.memWrite a v).plat.latch = s.plat.latch → (s.memWrite a v).memRead a = v) ∧
    (∀ r, s.select a = some r → r.canWrite = false → (s.memWrite a v).plat.mem = s.plat.mem) ∧
    (s.select a = none → (s.memWrite a v).plat.mem = s.plat.mem) ∧
    (∀ r, s.select a = some r → r.size ≤ a.toNat - r.start.toNat → (s.memWrite a v).plat.mem = s.plat.mem) ∧
    (∀ r, s.select a = some r → r.canWrite = true → a.toNat - r.start.toNat < r.size →
      ∀ k, (s.memWrite a v).plat.mem.read k =
        if k = cellKey r.buf (a.toNat - r.start.toNat) then v else s.plat.mem.read k) ∧
    ∀ r0 rs m, s.plat.regions = r0 :: rs → s.plat.rom = some m → r0.start ≤ a → a ≤ r0.stop →
      (s.plat.latch = true → (s.memWrite a v).plat.mem = s.plat.mem ∧
        s.memRead a = if a.toNat - r0.start.toNat < m.size then
          s.plat.mem.read (cellKey m.buf (a.toNat - r0.start.toNat)) else 0) ∧
      (s.plat.latch = false → s.select a = some r0)

/-! ## Whole-machine claims -/

/-- Derived: the invariant holds after reset. -/
def Obligations.ResetMeetsInvariant : Prop := State.reset.inv

/-- Derived (10 R43 to R51, 40 R122 to R137, 60 R322, R327): every step keeps the invariant, from every state that meets
it: the memory stays canonical, the counters stay in their ranges, descriptors are queued exactly in the DMA state, and
an instruction in progress has execute cycles left. -/
def Obligations.StepKeepsInvariant : Prop :=
  ∀ s t : State, s.inv → step s = .next t → t.inv

/-- Derived (10 R31, R32, R35 to R40, 45 R289): which instructions can change P, X, DF, T, IE and Q, and that none
changes B, I or N. -/
def Obligations.ControlRegisterWriters : Prop :=
  ∀ (i : Instr) (s t : State), exec i s = .next t →
    (t.cpu.ie ≠ s.cpu.ie → i = .ret ∨ i = .dis) ∧ (t.cpu.q ≠ s.cpu.q → i = .req ∨ i = .seq) ∧
    (t.cpu.t ≠ s.cpu.t → i = .mark) ∧ (t.cpu.df ≠ s.cpu.df → writesDf i = true) ∧
    (t.cpu.p ≠ s.cpu.p → writesP i = true) ∧ (t.cpu.x ≠ s.cpu.x → writesX i = true) ∧
    t.cpu.b = s.cpu.b ∧ t.cpu.i = s.cpu.i ∧ t.cpu.n = s.cpu.n

/-- Derived (10 R36): B influences nothing. With nothing scripted (a Reset transition would zero B), two machines that
differ in B alone step to machines that differ in B alone. -/
def Obligations.BIsUnobservable : Prop :=
  ∀ (s t : State) (b : Byte), s.env.script = [] → step s = .next t → step (s.withB b) = .next (t.withB b)

/-- Derived (00 R8, 10 R53): no step changes the platform's wiring. -/
def Obligations.WiringIsFixed : Prop :=
  ∀ s t : State, step s = .next t → t.plat.wiring = s.plat.wiring
end

