-- ==== Sys2Proof/Laws/State.lean ====
section
/-! SUPPORT. The small lemmas of the state updates: one per field per update, true by rfl, so that no later proof
unfolds a record update. -/

namespace Sys2Proof.Machine

variable (s : State)

@[simp] theorem setReg_stepper (n : Nibble) (v : Word) : (s.setReg n v).stepper = s.stepper := rfl
@[simp] theorem setReg_clock (n : Nibble) (v : Word) : (s.setReg n v).clock = s.clock := rfl
@[simp] theorem setReg_video (n : Nibble) (v : Word) : (s.setReg n v).video = s.video := rfl
@[simp] theorem setReg_plat (n : Nibble) (v : Word) : (s.setReg n v).plat = s.plat := rfl
@[simp] theorem setReg_env (n : Nibble) (v : Word) : (s.setReg n v).env = s.env := rfl
@[simp] theorem setReg_cpu_p (n : Nibble) (v : Word) : (s.setReg n v).cpu.p = s.cpu.p := rfl
@[simp] theorem setReg_cpu_x (n : Nibble) (v : Word) : (s.setReg n v).cpu.x = s.cpu.x := rfl
@[simp] theorem setReg_cpu_d (n : Nibble) (v : Word) : (s.setReg n v).cpu.d = s.cpu.d := rfl
@[simp] theorem setReg_cpu_df (n : Nibble) (v : Word) : (s.setReg n v).cpu.df = s.cpu.df := rfl
@[simp] theorem setReg_cpu_b (n : Nibble) (v : Word) : (s.setReg n v).cpu.b = s.cpu.b := rfl
@[simp] theorem setReg_cpu_i (n : Nibble) (v : Word) : (s.setReg n v).cpu.i = s.cpu.i := rfl
@[simp] theorem setReg_cpu_n (n : Nibble) (v : Word) : (s.setReg n v).cpu.n = s.cpu.n := rfl
@[simp] theorem setReg_cpu_t (n : Nibble) (v : Word) : (s.setReg n v).cpu.t = s.cpu.t := rfl
@[simp] theorem setReg_cpu_ie (n : Nibble) (v : Word) : (s.setReg n v).cpu.ie = s.cpu.ie := rfl
@[simp] theorem setReg_cpu_q (n : Nibble) (v : Word) : (s.setReg n v).cpu.q = s.cpu.q := rfl
@[simp] theorem setReg_cpu_ef (n : Nibble) (v : Word) : (s.setReg n v).cpu.ef = s.cpu.ef := rfl
@[simp] theorem setReg_select (n : Nibble) (v : Word) (a : Word) : (s.setReg n v).select a = s.select a := rfl
@[simp] theorem setReg_memRead (n : Nibble) (v : Word) (a : Word) : (s.setReg n v).memRead a = s.memRead a := rfl

@[simp] theorem setP_stepper (v : Nibble) : (s.setP v).stepper = s.stepper := rfl
@[simp] theorem setP_clock (v : Nibble) : (s.setP v).clock = s.clock := rfl
@[simp] theorem setP_video (v : Nibble) : (s.setP v).video = s.video := rfl
@[simp] theorem setP_plat (v : Nibble) : (s.setP v).plat = s.plat := rfl
@[simp] theorem setP_env (v : Nibble) : (s.setP v).env = s.env := rfl
@[simp] theorem setP_cpu_r (v : Nibble) : (s.setP v).cpu.r = s.cpu.r := rfl
@[simp] theorem setP_cpu_p (v : Nibble) : (s.setP v).cpu.p = v := rfl
@[simp] theorem setP_cpu_x (v : Nibble) : (s.setP v).cpu.x = s.cpu.x := rfl
@[simp] theorem setP_cpu_d (v : Nibble) : (s.setP v).cpu.d = s.cpu.d := rfl
@[simp] theorem setP_cpu_df (v : Nibble) : (s.setP v).cpu.df = s.cpu.df := rfl
@[simp] theorem setP_cpu_b (v : Nibble) : (s.setP v).cpu.b = s.cpu.b := rfl
@[simp] theorem setP_cpu_i (v : Nibble) : (s.setP v).cpu.i = s.cpu.i := rfl
@[simp] theorem setP_cpu_n (v : Nibble) : (s.setP v).cpu.n = s.cpu.n := rfl
@[simp] theorem setP_cpu_t (v : Nibble) : (s.setP v).cpu.t = s.cpu.t := rfl
@[simp] theorem setP_cpu_ie (v : Nibble) : (s.setP v).cpu.ie = s.cpu.ie := rfl
@[simp] theorem setP_cpu_q (v : Nibble) : (s.setP v).cpu.q = s.cpu.q := rfl
@[simp] theorem setP_cpu_ef (v : Nibble) : (s.setP v).cpu.ef = s.cpu.ef := rfl
@[simp] theorem setP_reg (v : Nibble) (m : Nibble) : (s.setP v).reg m = s.reg m := rfl
@[simp] theorem setP_select (v : Nibble) (a : Word) : (s.setP v).select a = s.select a := rfl
@[simp] theorem setP_memRead (v : Nibble) (a : Word) : (s.setP v).memRead a = s.memRead a := rfl

@[simp] theorem setX_stepper (v : Nibble) : (s.setX v).stepper = s.stepper := rfl
@[simp] theorem setX_clock (v : Nibble) : (s.setX v).clock = s.clock := rfl
@[simp] theorem setX_video (v : Nibble) : (s.setX v).video = s.video := rfl
@[simp] theorem setX_plat (v : Nibble) : (s.setX v).plat = s.plat := rfl
@[simp] theorem setX_env (v : Nibble) : (s.setX v).env = s.env := rfl
@[simp] theorem setX_cpu_r (v : Nibble) : (s.setX v).cpu.r = s.cpu.r := rfl
@[simp] theorem setX_cpu_p (v : Nibble) : (s.setX v).cpu.p = s.cpu.p := rfl
@[simp] theorem setX_cpu_x (v : Nibble) : (s.setX v).cpu.x = v := rfl
@[simp] theorem setX_cpu_d (v : Nibble) : (s.setX v).cpu.d = s.cpu.d := rfl
@[simp] theorem setX_cpu_df (v : Nibble) : (s.setX v).cpu.df = s.cpu.df := rfl
@[simp] theorem setX_cpu_b (v : Nibble) : (s.setX v).cpu.b = s.cpu.b := rfl
@[simp] theorem setX_cpu_i (v : Nibble) : (s.setX v).cpu.i = s.cpu.i := rfl
@[simp] theorem setX_cpu_n (v : Nibble) : (s.setX v).cpu.n = s.cpu.n := rfl
@[simp] theorem setX_cpu_t (v : Nibble) : (s.setX v).cpu.t = s.cpu.t := rfl
@[simp] theorem setX_cpu_ie (v : Nibble) : (s.setX v).cpu.ie = s.cpu.ie := rfl
@[simp] theorem setX_cpu_q (v : Nibble) : (s.setX v).cpu.q = s.cpu.q := rfl
@[simp] theorem setX_cpu_ef (v : Nibble) : (s.setX v).cpu.ef = s.cpu.ef := rfl
@[simp] theorem setX_reg (v : Nibble) (m : Nibble) : (s.setX v).reg m = s.reg m := rfl
@[simp] theorem setX_select (v : Nibble) (a : Word) : (s.setX v).select a = s.select a := rfl
@[simp] theorem setX_memRead (v : Nibble) (a : Word) : (s.setX v).memRead a = s.memRead a := rfl

@[simp] theorem setD_stepper (v : Byte) : (s.setD v).stepper = s.stepper := rfl
@[simp] theorem setD_clock (v : Byte) : (s.setD v).clock = s.clock := rfl
@[simp] theorem setD_video (v : Byte) : (s.setD v).video = s.video := rfl
@[simp] theorem setD_plat (v : Byte) : (s.setD v).plat = s.plat := rfl
@[simp] theorem setD_env (v : Byte) : (s.setD v).env = s.env := rfl
@[simp] theorem setD_cpu_r (v : Byte) : (s.setD v).cpu.r = s.cpu.r := rfl
@[simp] theorem setD_cpu_p (v : Byte) : (s.setD v).cpu.p = s.cpu.p := rfl
@[simp] theorem setD_cpu_x (v : Byte) : (s.setD v).cpu.x = s.cpu.x := rfl
@[simp] theorem setD_cpu_d (v : Byte) : (s.setD v).cpu.d = v := rfl
@[simp] theorem setD_cpu_df (v : Byte) : (s.setD v).cpu.df = s.cpu.df := rfl
@[simp] theorem setD_cpu_b (v : Byte) : (s.setD v).cpu.b = s.cpu.b := rfl
@[simp] theorem setD_cpu_i (v : Byte) : (s.setD v).cpu.i = s.cpu.i := rfl
@[simp] theorem setD_cpu_n (v : Byte) : (s.setD v).cpu.n = s.cpu.n := rfl
@[simp] theorem setD_cpu_t (v : Byte) : (s.setD v).cpu.t = s.cpu.t := rfl
@[simp] theorem setD_cpu_ie (v : Byte) : (s.setD v).cpu.ie = s.cpu.ie := rfl
@[simp] theorem setD_cpu_q (v : Byte) : (s.setD v).cpu.q = s.cpu.q := rfl
@[simp] theorem setD_cpu_ef (v : Byte) : (s.setD v).cpu.ef = s.cpu.ef := rfl
@[simp] theorem setD_reg (v : Byte) (m : Nibble) : (s.setD v).reg m = s.reg m := rfl
@[simp] theorem setD_select (v : Byte) (a : Word) : (s.setD v).select a = s.select a := rfl
@[simp] theorem setD_memRead (v : Byte) (a : Word) : (s.setD v).memRead a = s.memRead a := rfl

@[simp] theorem setDf_stepper (v : Bool) : (s.setDf v).stepper = s.stepper := rfl
@[simp] theorem setDf_clock (v : Bool) : (s.setDf v).clock = s.clock := rfl
@[simp] theorem setDf_video (v : Bool) : (s.setDf v).video = s.video := rfl
@[simp] theorem setDf_plat (v : Bool) : (s.setDf v).plat = s.plat := rfl
@[simp] theorem setDf_env (v : Bool) : (s.setDf v).env = s.env := rfl
@[simp] theorem setDf_cpu_r (v : Bool) : (s.setDf v).cpu.r = s.cpu.r := rfl
@[simp] theorem setDf_cpu_p (v : Bool) : (s.setDf v).cpu.p = s.cpu.p := rfl
@[simp] theorem setDf_cpu_x (v : Bool) : (s.setDf v).cpu.x = s.cpu.x := rfl
@[simp] theorem setDf_cpu_d (v : Bool) : (s.setDf v).cpu.d = s.cpu.d := rfl
@[simp] theorem setDf_cpu_df (v : Bool) : (s.setDf v).cpu.df = v := rfl
@[simp] theorem setDf_cpu_b (v : Bool) : (s.setDf v).cpu.b = s.cpu.b := rfl
@[simp] theorem setDf_cpu_i (v : Bool) : (s.setDf v).cpu.i = s.cpu.i := rfl
@[simp] theorem setDf_cpu_n (v : Bool) : (s.setDf v).cpu.n = s.cpu.n := rfl
@[simp] theorem setDf_cpu_t (v : Bool) : (s.setDf v).cpu.t = s.cpu.t := rfl
@[simp] theorem setDf_cpu_ie (v : Bool) : (s.setDf v).cpu.ie = s.cpu.ie := rfl
@[simp] theorem setDf_cpu_q (v : Bool) : (s.setDf v).cpu.q = s.cpu.q := rfl
@[simp] theorem setDf_cpu_ef (v : Bool) : (s.setDf v).cpu.ef = s.cpu.ef := rfl
@[simp] theorem setDf_reg (v : Bool) (m : Nibble) : (s.setDf v).reg m = s.reg m := rfl
@[simp] theorem setDf_select (v : Bool) (a : Word) : (s.setDf v).select a = s.select a := rfl
@[simp] theorem setDf_memRead (v : Bool) (a : Word) : (s.setDf v).memRead a = s.memRead a := rfl

@[simp] theorem setT_stepper (v : Byte) : (s.setT v).stepper = s.stepper := rfl
@[simp] theorem setT_clock (v : Byte) : (s.setT v).clock = s.clock := rfl
@[simp] theorem setT_video (v : Byte) : (s.setT v).video = s.video := rfl
@[simp] theorem setT_plat (v : Byte) : (s.setT v).plat = s.plat := rfl
@[simp] theorem setT_env (v : Byte) : (s.setT v).env = s.env := rfl
@[simp] theorem setT_cpu_r (v : Byte) : (s.setT v).cpu.r = s.cpu.r := rfl
@[simp] theorem setT_cpu_p (v : Byte) : (s.setT v).cpu.p = s.cpu.p := rfl
@[simp] theorem setT_cpu_x (v : Byte) : (s.setT v).cpu.x = s.cpu.x := rfl
@[simp] theorem setT_cpu_d (v : Byte) : (s.setT v).cpu.d = s.cpu.d := rfl
@[simp] theorem setT_cpu_df (v : Byte) : (s.setT v).cpu.df = s.cpu.df := rfl
@[simp] theorem setT_cpu_b (v : Byte) : (s.setT v).cpu.b = s.cpu.b := rfl
@[simp] theorem setT_cpu_i (v : Byte) : (s.setT v).cpu.i = s.cpu.i := rfl
@[simp] theorem setT_cpu_n (v : Byte) : (s.setT v).cpu.n = s.cpu.n := rfl
@[simp] theorem setT_cpu_t (v : Byte) : (s.setT v).cpu.t = v := rfl
@[simp] theorem setT_cpu_ie (v : Byte) : (s.setT v).cpu.ie = s.cpu.ie := rfl
@[simp] theorem setT_cpu_q (v : Byte) : (s.setT v).cpu.q = s.cpu.q := rfl
@[simp] theorem setT_cpu_ef (v : Byte) : (s.setT v).cpu.ef = s.cpu.ef := rfl
@[simp] theorem setT_reg (v : Byte) (m : Nibble) : (s.setT v).reg m = s.reg m := rfl
@[simp] theorem setT_select (v : Byte) (a : Word) : (s.setT v).select a = s.select a := rfl
@[simp] theorem setT_memRead (v : Byte) (a : Word) : (s.setT v).memRead a = s.memRead a := rfl

@[simp] theorem setIe_stepper (v : Bool) : (s.setIe v).stepper = s.stepper := rfl
@[simp] theorem setIe_clock (v : Bool) : (s.setIe v).clock = s.clock := rfl
@[simp] theorem setIe_video (v : Bool) : (s.setIe v).video = s.video := rfl
@[simp] theorem setIe_plat (v : Bool) : (s.setIe v).plat = s.plat := rfl
@[simp] theorem setIe_env (v : Bool) : (s.setIe v).env = s.env := rfl
@[simp] theorem setIe_cpu_r (v : Bool) : (s.setIe v).cpu.r = s.cpu.r := rfl
@[simp] theorem setIe_cpu_p (v : Bool) : (s.setIe v).cpu.p = s.cpu.p := rfl
@[simp] theorem setIe_cpu_x (v : Bool) : (s.setIe v).cpu.x = s.cpu.x := rfl
@[simp] theorem setIe_cpu_d (v : Bool) : (s.setIe v).cpu.d = s.cpu.d := rfl
@[simp] theorem setIe_cpu_df (v : Bool) : (s.setIe v).cpu.df = s.cpu.df := rfl
@[simp] theorem setIe_cpu_b (v : Bool) : (s.setIe v).cpu.b = s.cpu.b := rfl
@[simp] theorem setIe_cpu_i (v : Bool) : (s.setIe v).cpu.i = s.cpu.i := rfl
@[simp] theorem setIe_cpu_n (v : Bool) : (s.setIe v).cpu.n = s.cpu.n := rfl
@[simp] theorem setIe_cpu_t (v : Bool) : (s.setIe v).cpu.t = s.cpu.t := rfl
@[simp] theorem setIe_cpu_ie (v : Bool) : (s.setIe v).cpu.ie = v := rfl
@[simp] theorem setIe_cpu_q (v : Bool) : (s.setIe v).cpu.q = s.cpu.q := rfl
@[simp] theorem setIe_cpu_ef (v : Bool) : (s.setIe v).cpu.ef = s.cpu.ef := rfl
@[simp] theorem setIe_reg (v : Bool) (m : Nibble) : (s.setIe v).reg m = s.reg m := rfl
@[simp] theorem setIe_select (v : Bool) (a : Word) : (s.setIe v).select a = s.select a := rfl
@[simp] theorem setIe_memRead (v : Bool) (a : Word) : (s.setIe v).memRead a = s.memRead a := rfl

@[simp] theorem setQ_stepper (v : Bool) : (s.setQ v).stepper = s.stepper := rfl
@[simp] theorem setQ_clock (v : Bool) : (s.setQ v).clock = s.clock := rfl
@[simp] theorem setQ_video (v : Bool) : (s.setQ v).video = s.video := rfl
@[simp] theorem setQ_plat (v : Bool) : (s.setQ v).plat = s.plat := rfl
@[simp] theorem setQ_env (v : Bool) : (s.setQ v).env = s.env := rfl
@[simp] theorem setQ_cpu_r (v : Bool) : (s.setQ v).cpu.r = s.cpu.r := rfl
@[simp] theorem setQ_cpu_p (v : Bool) : (s.setQ v).cpu.p = s.cpu.p := rfl
@[simp] theorem setQ_cpu_x (v : Bool) : (s.setQ v).cpu.x = s.cpu.x := rfl
@[simp] theorem setQ_cpu_d (v : Bool) : (s.setQ v).cpu.d = s.cpu.d := rfl
@[simp] theorem setQ_cpu_df (v : Bool) : (s.setQ v).cpu.df = s.cpu.df := rfl
@[simp] theorem setQ_cpu_b (v : Bool) : (s.setQ v).cpu.b = s.cpu.b := rfl
@[simp] theorem setQ_cpu_i (v : Bool) : (s.setQ v).cpu.i = s.cpu.i := rfl
@[simp] theorem setQ_cpu_n (v : Bool) : (s.setQ v).cpu.n = s.cpu.n := rfl
@[simp] theorem setQ_cpu_t (v : Bool) : (s.setQ v).cpu.t = s.cpu.t := rfl
@[simp] theorem setQ_cpu_ie (v : Bool) : (s.setQ v).cpu.ie = s.cpu.ie := rfl
@[simp] theorem setQ_cpu_q (v : Bool) : (s.setQ v).cpu.q = v := rfl
@[simp] theorem setQ_cpu_ef (v : Bool) : (s.setQ v).cpu.ef = s.cpu.ef := rfl
@[simp] theorem setQ_reg (v : Bool) (m : Nibble) : (s.setQ v).reg m = s.reg m := rfl
@[simp] theorem setQ_select (v : Bool) (a : Word) : (s.setQ v).select a = s.select a := rfl
@[simp] theorem setQ_memRead (v : Bool) (a : Word) : (s.setQ v).memRead a = s.memRead a := rfl

@[simp] theorem setEf_stepper (k : Fin 4) (v : Bool) : (s.setEf k v).stepper = s.stepper := rfl
@[simp] theorem setEf_clock (k : Fin 4) (v : Bool) : (s.setEf k v).clock = s.clock := rfl
@[simp] theorem setEf_video (k : Fin 4) (v : Bool) : (s.setEf k v).video = s.video := rfl
@[simp] theorem setEf_plat (k : Fin 4) (v : Bool) : (s.setEf k v).plat = s.plat := rfl
@[simp] theorem setEf_env (k : Fin 4) (v : Bool) : (s.setEf k v).env = s.env := rfl
@[simp] theorem setEf_cpu_r (k : Fin 4) (v : Bool) : (s.setEf k v).cpu.r = s.cpu.r := rfl
@[simp] theorem setEf_cpu_p (k : Fin 4) (v : Bool) : (s.setEf k v).cpu.p = s.cpu.p := rfl
@[simp] theorem setEf_cpu_x (k : Fin 4) (v : Bool) : (s.setEf k v).cpu.x = s.cpu.x := rfl
@[simp] theorem setEf_cpu_d (k : Fin 4) (v : Bool) : (s.setEf k v).cpu.d = s.cpu.d := rfl
@[simp] theorem setEf_cpu_df (k : Fin 4) (v : Bool) : (s.setEf k v).cpu.df = s.cpu.df := rfl
@[simp] theorem setEf_cpu_b (k : Fin 4) (v : Bool) : (s.setEf k v).cpu.b = s.cpu.b := rfl
@[simp] theorem setEf_cpu_i (k : Fin 4) (v : Bool) : (s.setEf k v).cpu.i = s.cpu.i := rfl
@[simp] theorem setEf_cpu_n (k : Fin 4) (v : Bool) : (s.setEf k v).cpu.n = s.cpu.n := rfl
@[simp] theorem setEf_cpu_t (k : Fin 4) (v : Bool) : (s.setEf k v).cpu.t = s.cpu.t := rfl
@[simp] theorem setEf_cpu_ie (k : Fin 4) (v : Bool) : (s.setEf k v).cpu.ie = s.cpu.ie := rfl
@[simp] theorem setEf_cpu_q (k : Fin 4) (v : Bool) : (s.setEf k v).cpu.q = s.cpu.q := rfl
@[simp] theorem setEf_reg (k : Fin 4) (v : Bool) (m : Nibble) : (s.setEf k v).reg m = s.reg m := rfl
@[simp] theorem setEf_select (k : Fin 4) (v : Bool) (a : Word) : (s.setEf k v).select a = s.select a := rfl
@[simp] theorem setEf_memRead (k : Fin 4) (v : Bool) (a : Word) : (s.setEf k v).memRead a = s.memRead a := rfl

@[simp] theorem touch_cpu (k : AccessKind) (a : Nat) : (s.touch k a).cpu = s.cpu := rfl
@[simp] theorem touch_stepper (k : AccessKind) (a : Nat) : (s.touch k a).stepper = s.stepper := rfl
@[simp] theorem touch_clock (k : AccessKind) (a : Nat) : (s.touch k a).clock = s.clock := rfl
@[simp] theorem touch_video (k : AccessKind) (a : Nat) : (s.touch k a).video = s.video := rfl
@[simp] theorem touch_env (k : AccessKind) (a : Nat) : (s.touch k a).env = s.env := rfl
@[simp] theorem touch_plat_regions (k : AccessKind) (a : Nat) : (s.touch k a).plat.regions = s.plat.regions := rfl
@[simp] theorem touch_plat_rom (k : AccessKind) (a : Nat) : (s.touch k a).plat.rom = s.plat.rom := rfl
@[simp] theorem touch_plat_mem (k : AccessKind) (a : Nat) : (s.touch k a).plat.mem = s.plat.mem := rfl
@[simp] theorem touch_plat_keyLatch (k : AccessKind) (a : Nat) : (s.touch k a).plat.keyLatch = s.plat.keyLatch := rfl
@[simp] theorem touch_plat_keys (k : AccessKind) (a : Nat) : (s.touch k a).plat.keys = s.plat.keys := rfl
@[simp] theorem touch_plat_board (k : AccessKind) (a : Nat) : (s.touch k a).plat.board = s.plat.board := rfl
@[simp] theorem touch_plat_divideRate (k : AccessKind) (a : Nat) : (s.touch k a).plat.divideRate = s.plat.divideRate := rfl
@[simp] theorem touch_plat_audioPhase (k : AccessKind) (a : Nat) : (s.touch k a).plat.audioPhase = s.plat.audioPhase := rfl
@[simp] theorem touch_plat_audioEnable (k : AccessKind) (a : Nat) : (s.touch k a).plat.audioEnable = s.plat.audioEnable := rfl
@[simp] theorem touch_plat_wiring (k : AccessKind) (a : Nat) : (s.touch k a).plat.wiring = s.plat.wiring := rfl
@[simp] theorem touch_reg (k : AccessKind) (a : Nat) (m : Nibble) : (s.touch k a).reg m = s.reg m := rfl
@[simp] theorem touch_pc (k : AccessKind) (a : Nat) : (s.touch k a).pc = s.pc := rfl

@[simp] theorem afterRead_cpu (a : Word) : (s.afterRead a).cpu = s.cpu := rfl
@[simp] theorem afterRead_stepper (a : Word) : (s.afterRead a).stepper = s.stepper := rfl
@[simp] theorem afterRead_clock (a : Word) : (s.afterRead a).clock = s.clock := rfl
@[simp] theorem afterRead_video (a : Word) : (s.afterRead a).video = s.video := rfl
@[simp] theorem afterRead_env (a : Word) : (s.afterRead a).env = s.env := rfl
@[simp] theorem afterRead_plat_regions (a : Word) : (s.afterRead a).plat.regions = s.plat.regions := rfl
@[simp] theorem afterRead_plat_rom (a : Word) : (s.afterRead a).plat.rom = s.plat.rom := rfl
@[simp] theorem afterRead_plat_mem (a : Word) : (s.afterRead a).plat.mem = s.plat.mem := rfl
@[simp] theorem afterRead_plat_keyLatch (a : Word) : (s.afterRead a).plat.keyLatch = s.plat.keyLatch := rfl
@[simp] theorem afterRead_plat_keys (a : Word) : (s.afterRead a).plat.keys = s.plat.keys := rfl
@[simp] theorem afterRead_plat_board (a : Word) : (s.afterRead a).plat.board = s.plat.board := rfl
@[simp] theorem afterRead_plat_divideRate (a : Word) : (s.afterRead a).plat.divideRate = s.plat.divideRate := rfl
@[simp] theorem afterRead_plat_audioPhase (a : Word) : (s.afterRead a).plat.audioPhase = s.plat.audioPhase := rfl
@[simp] theorem afterRead_plat_audioEnable (a : Word) : (s.afterRead a).plat.audioEnable = s.plat.audioEnable := rfl
@[simp] theorem afterRead_plat_wiring (a : Word) : (s.afterRead a).plat.wiring = s.plat.wiring := rfl
@[simp] theorem afterRead_reg (a : Word) (m : Nibble) : (s.afterRead a).reg m = s.reg m := rfl
@[simp] theorem afterRead_pc (a : Word) : (s.afterRead a).pc = s.pc := rfl

@[simp] theorem touch_plat_latch (k : AccessKind) (a : Nat) :
    (s.touch k a).plat.latch = (s.plat.latch && !s.plat.wiring.releases k a) := rfl

@[simp] theorem afterRead_plat_latch (a : Word) :
    (s.afterRead a).plat.latch = (s.plat.latch && !s.plat.wiring.releases .memRead a.toNat) := rfl

/-! ## Registers -/

@[simp] theorem reg_setReg_self (n : Nibble) (v : Word) : (s.setReg n v).reg n = v := by
  simp [State.reg, State.setReg]

theorem reg_setReg_ne {n m : Nibble} (v : Word) (h : m ≠ n) : (s.setReg n v).reg m = s.reg m := by
  have : n.toNat ≠ m.toNat := fun e => h (BitVec.eq_of_toNat_eq e.symm)
  simp [State.reg, State.setReg, this]

/-- Every register after a register write. -/
theorem reg_setReg (n m : Nibble) (v : Word) : (s.setReg n v).reg m = if m = n then v else s.reg m := by
  split
  · subst m; simp
  · exact reg_setReg_ne s v ‹_›

@[simp] theorem regNo_toNat (n : Nibble) : regNo n.toNat = n := by simp [regNo]

@[simp] theorem setPc_plat (v : Word) : (s.setPc v).plat = s.plat := rfl
@[simp] theorem setPc_stepper (v : Word) : (s.setPc v).stepper = s.stepper := rfl
@[simp] theorem setPc_env (v : Word) : (s.setPc v).env = s.env := rfl
@[simp] theorem setPc_video (v : Word) : (s.setPc v).video = s.video := rfl
@[simp] theorem setPc_clock (v : Word) : (s.setPc v).clock = s.clock := rfl
@[simp] theorem setPc_cpu_p (v : Word) : (s.setPc v).cpu.p = s.cpu.p := rfl
@[simp] theorem pc_setPc (v : Word) : (s.setPc v).pc = v := by simp [State.pc, State.setPc]

/-- An EF bit after a write to an EF bit. -/
theorem efBit_setEf (k j : Fin 4) (v : Bool) : (s.setEf k v).efBit j = if j = k then v else s.efBit j := by
  by_cases h : j = k
  · subst h; simp [State.efBit, State.setEf]
  · have : (k : Nat) ≠ j := fun e => h (Fin.ext e.symm)
    simp [State.efBit, State.setEf, h, this]

end Sys2Proof.Machine
end

