-- ==== Sys2Proof/Laws/Memory.lean ====
section
/-! SUPPORT. The laws of the buffer contents and of the memory accesses: read after write, the canonical form, and what
a memory read and a memory write do. -/

namespace Sys2Proof.Machine

/-! ## The buffer contents -/

@[simp] theorem Memory.read_nil (k : Nat) : Memory.read [] k = Memory.unlisted := rfl

theorem Memory.read_cons (a : Nat) (w : Byte) (m : Memory) (k : Nat) :
    Memory.read ((a, w) :: m) k = if a = k then w else m.read k := rfl

/-- A key below every listed key reads as unlisted. -/
theorem Memory.read_below {m : Memory} {k : Nat} (h : ∀ c ∈ m, k < c.1) : m.read k = Memory.unlisted := by
  induction m with
  | nil => rfl
  | cons c m ih =>
    obtain ⟨a, w⟩ := c
    have := h (a, w) (by simp)
    rw [Memory.read_cons, if_neg (by simp at this; omega)]
    exact ih fun c hc => h c (by simp [hc])

/-- Every key a write lists was listed, or is the written one. -/
theorem Memory.mem_write {m : Memory} {k : Nat} {v : Byte} {c : Host.Cell} (h : c ∈ m.write k v) :
    c = (k, v) ∧ v ≠ Memory.unlisted ∨ c ∈ m := by
  induction m with
  | nil =>
    simp only [Memory.write] at h
    split at h <;> simp_all
  | cons d m ih =>
    obtain ⟨a, w⟩ := d
    simp only [Memory.write] at h
    split_ifs at h with h1 h2 h3 h4
    · exact .inr h
    · rcases List.mem_cons.1 h with h | h
      · exact .inl ⟨h, h2⟩
      · exact .inr h
    · exact .inr (List.mem_cons_of_mem _ h)
    · rcases List.mem_cons.1 h with h | h
      · exact .inl ⟨h, h4⟩
      · exact .inr (List.mem_cons_of_mem _ h)
    · rcases List.mem_cons.1 h with h | h
      · exact .inr (by simp [h])
      · rcases ih h with h | h
        · exact .inl h
        · exact .inr (List.mem_cons_of_mem _ h)

/-- A write keeps the canonical form. -/
theorem Memory.wf_write {m : Memory} (h : m.wf) (k : Nat) (v : Byte) : (m.write k v).wf := by
  refine ⟨?_, fun c hc => ?_⟩
  · obtain ⟨h, -⟩ := h
    induction m with
    | nil => simp only [Memory.write]; split <;> simp
    | cons d m ih =>
      obtain ⟨a, w⟩ := d
      have hm := (List.pairwise_cons.1 h).2
      have ha := (List.pairwise_cons.1 h).1
      simp only [Memory.write]
      split_ifs with h1 h2 h3 h4
      · exact h
      · refine List.pairwise_cons.2 ⟨fun c hc => ?_, h⟩
        rcases List.mem_cons.1 hc with rfl | hc
        · exact h1
        · exact lt_trans h1 (ha c hc)
      · exact hm
      · subst h3; exact List.pairwise_cons.2 ⟨ha, hm⟩
      · refine List.pairwise_cons.2 ⟨fun c hc => ?_, ih hm⟩
        rcases Memory.mem_write hc with ⟨rfl, -⟩ | hc
        · simp only; omega
        · exact ha c hc
  · rcases Memory.mem_write hc with ⟨rfl, hv⟩ | hc
    · exact hv
    · exact h.2 c hc

/-- A read after a write. The canonical form matters: a write of the unlisted value deletes one entry. -/
theorem Memory.read_write {m : Memory} (h : m.wf) (k j : Nat) (v : Byte) :
    (m.write k v).read j = if j = k then v else m.read j := by
  obtain ⟨h, -⟩ := h
  induction m with
  | nil =>
    simp only [Memory.write]
    split_ifs with h1 h2 h2 <;> simp_all [Memory.read_cons, eq_comm]
  | cons d m ih =>
    obtain ⟨a, w⟩ := d
    have hm := (List.pairwise_cons.1 h).2
    have ha := (List.pairwise_cons.1 h).1
    have ih := ih hm
    simp only [Memory.write]
    split_ifs with h1 h2 h3 h4 h5 h6 h7 h8 h9
    · subst h3
      rw [Memory.read_cons, if_neg (by omega), h2]
      exact Memory.read_below fun c hc => lt_trans h1 (ha c hc)
    · rfl
    · subst h4; simp [Memory.read_cons]
    · rw [Memory.read_cons, if_neg (by omega)]
    · subst h7; subst h5; rw [h6]
      exact Memory.read_below fun c hc => ha c hc
    · rw [Memory.read_cons, if_neg (by omega)]
    · subst h8; simp [Memory.read_cons]
    · rw [Memory.read_cons, Memory.read_cons, if_neg (by omega), if_neg (by omega)]
    · subst h9; rw [Memory.read_cons, if_neg (by omega), ih, if_pos rfl]
    · rw [Memory.read_cons, Memory.read_cons, ih, if_neg h9]

/-! ## Reads -/

/-- What a read returns: the byte of its cell, or 0x00 (20 R74). -/
theorem memRead_eq (s : State) (a : Word) :
    (∃ k, s.readCell a = some k ∧ s.memRead a = s.plat.mem.read k) ∨ (s.readCell a = none ∧ s.memRead a = 0) := by
  simp only [State.memRead]
  cases h : s.readCell a <;> simp

/-- What a read does to the state: at most, it clears the address-inhibit latch. -/
theorem afterRead_eq (s : State) (a : Word) :
    s.afterRead a = { s with plat := { s.plat with latch := (s.afterRead a).plat.latch } } := rfl

/-- A read that releases nothing leaves the state as it was. -/
theorem afterRead_of_not_releases {s : State} {a : Word} (h : s.plat.wiring.releases .memRead a.toNat = false) :
    s.afterRead a = s := by
  simp [State.afterRead, State.touch, h]

/-! ## Writes -/

/-- What a write does: the store, the hook's change of the board, and the latch (20 R75, R76). Nothing else changes. -/
theorem memWrite_eq (s : State) (a : Word) (v : Byte) :
    s.memWrite a v = { s with plat := { s.plat with
      mem := match s.writeCell a with | some k => s.plat.mem.write k v | none => s.plat.mem
      board := (s.memWrite a v).plat.board
      latch := s.plat.latch && !s.plat.wiring.releases .memWrite a.toNat } } := by
  simp only [State.memWrite, State.store, State.runHook, State.touch]
  cases s.writeCell a <;> (split <;> rfl)

/-- The board changes only through the hook of the selected region (20 R76). -/
theorem memWrite_board (s : State) (a : Word) (v : Byte) :
    (s.memWrite a v).plat.board = match (s.select a).bind Region.hook, s.plat.board with
      | some .vp590, .vp590 b => .vp590 (b.written a v)
      | _, b => b := by
  simp only [State.memWrite, State.store, State.runHook, State.touch]
  cases s.writeCell a <;> rcases (s.select a).bind Region.hook with _ | ⟨⟨⟩⟩ <;> cases hb : s.plat.board <;> simp [hb]

@[simp] theorem memWrite_cpu (s : State) (a : Word) (v : Byte) : (s.memWrite a v).cpu = s.cpu := by
  rw [memWrite_eq]

@[simp] theorem memWrite_reg (s : State) (a : Word) (v : Byte) (n : Nibble) : (s.memWrite a v).reg n = s.reg n := by
  simp [State.reg]

@[simp] theorem memWrite_stepper (s : State) (a : Word) (v : Byte) : (s.memWrite a v).stepper = s.stepper := by
  rw [memWrite_eq]

@[simp] theorem memWrite_clock (s : State) (a : Word) (v : Byte) : (s.memWrite a v).clock = s.clock := by
  rw [memWrite_eq]

@[simp] theorem memWrite_video (s : State) (a : Word) (v : Byte) : (s.memWrite a v).video = s.video := by
  rw [memWrite_eq]

@[simp] theorem memWrite_env (s : State) (a : Word) (v : Byte) : (s.memWrite a v).env = s.env := by
  rw [memWrite_eq]

theorem memWrite_mem (s : State) (a : Word) (v : Byte) :
    (s.memWrite a v).plat.mem = match s.writeCell a with
      | some k => s.plat.mem.write k v
      | none => s.plat.mem := by
  rw [memWrite_eq]

/-- A memory write keeps the canonical form. -/
theorem memWrite_wf {s : State} (h : s.plat.mem.wf) (a : Word) (v : Byte) : (s.memWrite a v).plat.mem.wf := by
  rw [memWrite_mem]
  split
  · exact Memory.wf_write h _ _
  · exact h

end Sys2Proof.Machine
end

