-- ==== Sys2Proof/Laws/Ops.lean ====
section
/-! SUPPORT. What each shared operation can do, said once: a later proof cites these and does not unfold the operation. -/

namespace Sys2Proof.Machine

/-! ## Calls and requests -/

/-- `t` is `s` but for the request slots, the interrupt latch and the host's side. -/
def RequestsOnly (s t : State) : Prop :=
  t = { s with
    stepper := { s.stepper with
      slotIn := t.stepper.slotIn, slotOut := t.stepper.slotOut
      intPending := t.stepper.intPending, intIe := t.stepper.intIe }
    env := t.env }

theorem RequestsOnly.refl (s : State) : RequestsOnly s s := rfl

theorem RequestsOnly.trans {s t u : State} (h : RequestsOnly s t) (h' : RequestsOnly t u) : RequestsOnly s u := by
  unfold RequestsOnly at *
  rw [h'] ; rw [h]

theorem emit_eq (s : State) (b : Bool) (o : Output) :
    s.emit b o = { s with env := { s.env with out := if b then o :: s.env.out else s.env.out } } := by
  cases b <;> rfl

/-- A DMA request fills its empty slot or is dropped (40 R132). -/
theorem issueDma_cases (s : State) (d : Dir) (r : DmaRequest) :
    (s.issueDma d r = s ∧ (r.count = 0 ∨ s.stepper.slot d ≠ none)) ∨
    (0 < r.count ∧ s.stepper.slot d = none ∧
      s.issueDma d r = { s with stepper := s.stepper.setSlot d (some r) }) := by
  unfold State.issueDma
  split
  · exact .inl ⟨rfl, .inl ‹_›⟩
  · cases h : s.stepper.slot d with
    | none => exact .inr ⟨by omega, rfl, rfl⟩
    | some q => exact .inl ⟨rfl, .inr (by simp)⟩

/-- An interrupt request is latched with IE, or dropped while one is pending (60 R303). -/
theorem issueInterrupt_cases (s : State) :
    (s.stepper.intPending = true ∧ s.issueInterrupt = s) ∨
    (s.stepper.intPending = false ∧ s.issueInterrupt =
      { s with stepper := { s.stepper with intPending := true, intIe := s.cpu.ie } }) := by
  unfold State.issueInterrupt
  cases h : s.stepper.intPending <;> simp

theorem emit_only (s : State) (b : Bool) (o : Output) : RequestsOnly s (s.emit b o) := by
  rw [emit_eq]; rfl

theorem issueDma_only (s : State) (d : Dir) (r : DmaRequest) : RequestsOnly s (s.issueDma d r) := by
  rcases issueDma_cases s d r with ⟨h, -⟩ | ⟨-, -, h⟩ <;> rw [h]
  · exact .refl s
  · cases d <;> rfl

theorem issueInterrupt_only (s : State) : RequestsOnly s s.issueInterrupt := by
  rcases issueInterrupt_cases s with ⟨-, h⟩ | ⟨-, h⟩ <;> rw [h] <;> rfl

theorem request_only (s : State) (r : Request) : RequestsOnly s (s.request r) := by
  cases r with
  | dma d q => exact issueDma_only s d q
  | interrupt => exact issueInterrupt_only s

theorem requests_only (rs : List Request) (s : State) : RequestsOnly s (rs.foldl State.request s) := by
  induction rs generalizing s with
  | nil => exact .refl s
  | cons r rs ih => exact (request_only s r).trans (ih _)

/-- A request does not touch the host's side. -/
theorem request_env (s : State) (r : Request) : (s.request r).env = s.env := by
  cases r with
  | dma d q => rcases issueDma_cases s d q with ⟨h, -⟩ | ⟨-, -, h⟩ <;> rw [State.request, h]
  | interrupt => rcases issueInterrupt_cases s with ⟨-, h⟩ | ⟨-, h⟩ <;> rw [State.request, h]

theorem requests_env (rs : List Request) (s : State) : (rs.foldl State.request s).env = s.env := by
  induction rs generalizing s with
  | nil => rfl
  | cons r rs ih => rw [List.foldl_cons, ih, request_env]

/-- What a request does to the stepper depends on the stepper and IE alone. -/
theorem request_congr {s t : State} (r : Request) (h : t.stepper = s.stepper) (hc : t.cpu.ie = s.cpu.ie) :
    (t.request r).stepper = (s.request r).stepper ∧ (t.request r).cpu.ie = (s.request r).cpu.ie := by
  cases r with
  | dma d q =>
    simp only [State.request, State.issueDma, h]
    split
    · exact ⟨h, hc⟩
    · split <;> simp [h, hc]
  | interrupt =>
    simp only [State.request, State.issueInterrupt, h, hc]
    split <;> simp [h, hc]

theorem requests_congr (rs : List Request) {s t : State} (h : t.stepper = s.stepper) (hc : t.cpu.ie = s.cpu.ie) :
    (rs.foldl State.request t).stepper = (rs.foldl State.request s).stepper := by
  induction rs generalizing s t with
  | nil => exact h
  | cons r rs ih => exact ih (request_congr r h hc).1 (request_congr r h hc).2

/-- Requests neither read nor write the DMA queue. -/
theorem requests_queue (rs : List Request) (s : State) (q : List Descriptor) :
    rs.foldl State.request { s with stepper := { s.stepper with queue := q } } =
      { rs.foldl State.request s with stepper := { (rs.foldl State.request s).stepper with queue := q } } := by
  induction rs generalizing s with
  | nil => rfl
  | cons r rs ih =>
    rw [List.foldl_cons, List.foldl_cons, ← ih]
    congr 1
    rcases r with ⟨⟨⟩, r⟩ | _
    · simp only [State.request, State.issueDma, Stepper.slot, Stepper.setSlot]
      split
      · rfl
      · split <;> simp_all
    · simp only [State.request, State.issueDma, Stepper.slot, Stepper.setSlot]
      split
      · rfl
      · split <;> simp_all
    · simp only [State.request, State.issueInterrupt]
      split <;> rfl

/-- A callback of the host uses up one entry of the reactions and changes nothing else of the host's side. -/
theorem react_env (s : State) : s.react.env = { s.env with reactions := s.env.reactions.tail } := by
  unfold State.react
  split <;> rename_i h
  · rw [h, List.tail_nil, ← h]
  · rw [requests_env, h, List.tail_cons]

/-- The requests that a callback of the host issues are the next entry of the reactions, if any. -/
theorem react_stepper (s : State) :
    s.react.stepper = ((s.env.reactions.headD []).foldl State.request s).stepper := by
  unfold State.react
  cases s.env.reactions with
  | nil => rfl
  | cons rs rest => exact requests_congr rs rfl rfl

/-- A callback of the host may issue requests and nothing else. -/
theorem react_only (s : State) : RequestsOnly s s.react := by
  unfold State.react
  split
  · exact .refl s
  · exact RequestsOnly.trans (t := { s with env := { s.env with reactions := _ } }) rfl (requests_only _ _)

/-- A supplied byte comes from the tape or is a free byte, and only the host's side changes. -/
theorem supply_eq (s : State) :
    s.supply = (s.env.tape.head?.getD (Config.freeByte s.env.draws),
      { s with env := { s.env with
        tape := s.env.tape.tail
        draws := if s.env.tape = [] then s.env.draws + 1 else s.env.draws } }) := by
  obtain ⟨_, _, _, _, _, ⟨_, _, tape, _, _⟩⟩ := s
  cases tape <;> simp [State.supply]

theorem supply_only (s : State) : RequestsOnly s s.supply.2 := by
  rw [supply_eq]; rfl

theorem qOut_only (s : State) : RequestsOnly s s.qOut := by
  unfold State.qOut
  split
  · exact (emit_only _ _ _).trans (react_only _)
  · exact .refl s

/-- With the callback attached, a machine-cycle boundary reports the Q of that moment (45 R295, 40 R123). -/
theorem qOut_reportedQ (s : State) (h : s.plat.wiring.attached.qOut = true) : s.qOut.reportedQ = some s.cpu.q := by
  unfold State.qOut State.reportedQ
  rw [if_pos h, react_env]
  rfl

/-- Of the machine's state, an audio sample depends on the divider and the reported Q alone (60 R343, 45 R295). -/
theorem audioPull_congr {s t : State} (dt : Rat) (hp : t.plat = s.plat) (hq : t.reportedQ = s.reportedQ) :
    (t.audioPull dt).1 = (s.audioPull dt).1 := by
  simp only [State.audioPull, hp, hq]

/-! ## The video controller -/

/-- `Sync()` may write the EF bit, issue requests, call the present callback, and it advances the counters (60 R321). -/
theorem sync_eq (s : State) :
    s.sync = { s with
      cpu := (if s.video.writesFlag then s.setEf Config.videoEf s.video.inFlagWindow else s).cpu
      stepper := { s.stepper with
        slotOut := s.sync.stepper.slotOut, intPending := s.sync.stepper.intPending, intIe := s.sync.stepper.intIe }
      video := s.video.advance
      env := s.sync.env } := by
  unfold State.sync State.issueInterrupt State.issueDma State.present
  simp only [emit_eq]
  split_ifs <;> first | rfl | (simp only [Stepper.slot]; split <;> rfl)

/-- A disable zeroes the cursor and calls clear-frame and present; an enable only sets the flag (60 R328). -/
theorem setDisplay_eq (s : State) (e : Bool) :
    s.setDisplay e = { s with
      video := { s.video with display := e, cursor := if e then s.video.cursor else 0 }
      env := (s.setDisplay e).env } := by
  unfold State.setDisplay State.clearFrame State.present
  cases e <;> simp [emit_eq]

/-- `DmaOutByte` advances the display cursor and calls the pixel sink (60 R327). -/
theorem dmaOutByte_eq (s : State) (ctx : Nat) (b : Byte) :
    s.dmaOutByte ctx b = { s with
      video := { s.video with cursor := (s.video.cursor + 1) % Config.displayBytes }
      env := (s.dmaOutByte ctx b).env } := by
  unfold State.dmaOutByte
  simp [emit_eq]

/-! ## Expansion boards -/

/-- A swap changes the board, the region list and, for a VP595, the divide rate (60 R352, R340). -/
theorem swapBoard_eq (s : State) (k : BoardKind) :
    s.swapBoard k = { s with plat := { s.plat with
      board := (s.swapBoard k).plat.board
      regions := (s.plat.regions.filter fun r => decide (r.hook ≠ some .vp590)) ++
        (if k = .vp590 then [vp590Region] else [])
      divideRate := if k = .vp595 then Config.defaultRate else s.plat.divideRate } } := by
  cases k <;> simp [State.swapBoard]

/-- An access to the background port steps the background colour (60 R334). -/
theorem stepBackground_board {s : State} {b : Vp590} (d : Dir) (n : Port) (hb : s.plat.board = .vp590 b) :
    (s.stepBackground d n).plat.board =
      if Config.vp590BackgroundPort = (d, n) then .vp590 { b with background := b.background + 1 } else .vp590 b := by
  simp only [State.stepBackground, hb]
  split <;> simp_all

/-- The background port is not port 0 (20 R78). -/
theorem vp590BackgroundPort_ne_zero : Config.vp590BackgroundPort.2 ≠ 0 := by
  unfold Config.vp590BackgroundPort
  exact (by decide : ∀ k : Fin 7, BitVec.ofNat 3 (k + 1) ≠ 0) _

/-- Without a VP590, or on another port than its background port, nothing steps. -/
theorem stepBackground_none {s : State} {d : Dir} {n : Port}
    (h : (∀ v, s.plat.board ≠ .vp590 v) ∨ Config.vp590BackgroundPort ≠ (d, n)) : s.stepBackground d n = s := by
  unfold State.stepBackground
  split
  · rcases h with h | h
    · exact absurd ‹_› (h _)
    · rw [if_neg h]
  · rfl

/-! ## The keypad -/

/-- The keypad drives its EF line, and without one nothing (60 R350). -/
theorem driveKeypad_some {s : State} {k : Fin 4} (h : s.plat.wiring.keypadEf = some k) :
    s.driveKeypad = s.setEf k s.plat.keyDown := by
  simp [State.driveKeypad, h]

theorem driveKeypad_none {s : State} (h : s.plat.wiring.keypadEf = none) : s.driveKeypad = s := by
  simp [State.driveKeypad, h]

/-! ## Ports -/

/-- What a port access may change: an EF bit, the requests, the display and its cursor, the latch, the key latch, the
board's registers, the divide rate, and the host's side (60 R351). -/
def PortOnly (s t : State) : Prop :=
  t = { s with
    cpu := { s.cpu with ef := t.cpu.ef }
    stepper := { s.stepper with
      slotIn := t.stepper.slotIn, slotOut := t.stepper.slotOut
      intPending := t.stepper.intPending, intIe := t.stepper.intIe }
    video := { s.video with display := t.video.display, cursor := t.video.cursor }
    plat := { s.plat with
      latch := t.plat.latch, keyLatch := t.plat.keyLatch, board := t.plat.board, divideRate := t.plat.divideRate }
    env := t.env }

theorem PortOnly.refl (s : State) : PortOnly s s := rfl

theorem PortOnly.trans {s t u : State} (h : PortOnly s t) (h' : PortOnly t u) : PortOnly s u := by
  unfold PortOnly at *
  rw [h'] ; rw [h]

theorem RequestsOnly.portOnly {s t : State} (h : RequestsOnly s t) : PortOnly s t := by
  unfold RequestsOnly at h
  unfold PortOnly
  rw [h]

theorem driveKeypad_portOnly (s : State) : PortOnly s s.driveKeypad := by
  unfold State.driveKeypad
  split <;> rfl

theorem stepBackground_portOnly (s : State) (d : Dir) (n : Port) : PortOnly s (s.stepBackground d n) := by
  unfold State.stepBackground
  split
  · split <;> rfl
  · rfl

theorem deviceOut_portOnly (s : State) (dev : OutDevice) (b : Byte) : PortOnly s (s.deviceOut dev b) := by
  cases dev with
  | ignored => rfl
  | displayOff => rw [State.deviceOut, setDisplay_eq]; rfl
  | keyLatch =>
    exact PortOnly.trans (t := { s with plat := { s.plat with keyLatch := lowNibble b } }) rfl (driveKeypad_portOnly _)
  | divider => simp only [State.deviceOut, State.setRate]; split <;> rfl
  | external => exact (react_only s).portOnly

theorem deviceIn_portOnly (s : State) (dev : InDevice) : PortOnly s (s.deviceIn dev).2 := by
  cases dev with
  | nothing => rfl
  | displayOn => simp only [State.deviceIn]; rw [setDisplay_eq]; rfl
  | external => exact ((react_only s).trans (supply_only _)).portOnly

theorem touch_portOnly (s : State) (k : AccessKind) (a : Nat) : PortOnly s (s.touch k a) := rfl

/-- Everything an output to a port may change. -/
theorem portOut_only (s : State) (n : Port) (b : Byte) : PortOnly s (s.portOut n b) := by
  unfold State.portOut
  refine PortOnly.trans ?_ (touch_portOnly _ _ _)
  split
  · exact ((emit_only s true (.portOut n b)).portOnly.trans (deviceOut_portOnly _ _ _)).trans
      (stepBackground_portOnly _ _ _)
  · rfl

/-- Everything an input from a port may change. -/
theorem portIn_only (s : State) (n : Port) : PortOnly s (s.portIn n).2 := by
  unfold State.portIn
  split
  · exact (((emit_only s true (.portIn n)).portOnly.trans (deviceIn_portOnly _ _)).trans
      (stepBackground_portOnly _ _ _)).trans (touch_portOnly _ _ _)
  · rfl

/-! ## Arbitration -/

/-- The four outcomes of an arbitration, in their order (40 R131). -/
theorem arbitrate_cases (s : State) :
    (∃ r, s.stepper.slotIn = some r ∧ s.arbitrate = { s with stepper := { s.stepper with
      cycle := .dma, slotIn := none, queue := List.replicate r.count ⟨.input, r.ctx, r.cb⟩ } }) ∨
    (s.stepper.slotIn = none ∧ ∃ r, s.stepper.slotOut = some r ∧ s.arbitrate = { s with stepper := { s.stepper with
      cycle := .dma, slotOut := none, queue := List.replicate r.count ⟨.output, r.ctx, r.cb⟩ } }) ∨
    (s.stepper.slotIn = none ∧ s.stepper.slotOut = none ∧ s.stepper.intPending = true ∧
      s.arbitrate = s.interruptDecision) ∨
    (s.stepper.slotIn = none ∧ s.stepper.slotOut = none ∧ s.stepper.intPending = false ∧
      s.arbitrate = s.goto .fetch) := by
  unfold State.arbitrate State.accept State.goto Stepper.slot Stepper.setSlot
  cases hi : s.stepper.slotIn with
  | some r => exact .inl ⟨r, rfl, by simp⟩
  | none =>
    cases ho : s.stepper.slotOut with
    | some r => exact .inr (.inl ⟨rfl, r, rfl, by simp [hi]⟩)
    | none => cases hp : s.stepper.intPending <;> simp

/-- An arbitration changes the stepper alone, keeps idle, and never ends in Execute (40 R131). -/
theorem arbitrate_only (s : State) :
    s.arbitrate = { s with stepper := s.arbitrate.stepper } ∧ s.arbitrate.stepper.idle = s.stepper.idle ∧
    s.arbitrate.stepper.cycle ≠ .execute := by
  rcases arbitrate_cases s with ⟨r, -, h⟩ | ⟨-, r, -, h⟩ | ⟨-, -, -, h⟩ | ⟨-, -, -, h⟩ <;> rw [h] <;>
    simp [State.interruptDecision, State.goto]
  split <;> simp

/-! ## Interrupt entry and return -/

/-- Interrupt entry (60 R305). -/
theorem interruptEntry_eq (s : State) :
    s.interruptEntry = { s with
      cpu := { s.cpu with t := packNibbles s.cpu.x s.cpu.p, x := 2, p := 1, ie := false }
      stepper := { s.stepper with cycle := .fetch } } := rfl

/-- The return of RET and DIS (45 R287, R288). -/
theorem returnFrom_eq (s : State) (ie : Bool) :
    s.returnFrom ie = { s.afterRead (s.reg s.cpu.x) with
      cpu := { (s.setReg s.cpu.x (inc16 (s.reg s.cpu.x))).cpu with
        x := highNibble (s.memRead (s.reg s.cpu.x)), p := lowNibble (s.memRead (s.reg s.cpu.x)), ie := ie } } := rfl

/-! ## The results of the steps -/

/-- Every instruction answers a next state. -/
theorem exec_next (i : Instr) (s : State) : ∃ t, exec i s = .next t := by
  cases i <;> exact ⟨_, rfl⟩

/-- A continuation of a `next`. -/
@[simp] theorem andThen_next (s : State) (f : State → Result) : andThen (.next s) f = f s := rfl

end Sys2Proof.Machine
end

