-- ==== Sys2Proof/Laws/Cycle.lean ====
section
/-! SUPPORT. What the parts of a machine cycle can do, said once: what comes before the CPU step, the fetch, the end of
an execute cycle, and a DMA transfer. -/

namespace Sys2Proof.Machine

/-! ## Before the CPU step -/

/-- `t` is `s` but for the EF bits, the requests, the video controller and the host's side. -/
def BeforeStep (s t : State) : Prop :=
  t = { s with
    cpu := { s.cpu with ef := t.cpu.ef }
    stepper := { s.stepper with
      slotIn := t.stepper.slotIn, slotOut := t.stepper.slotOut
      intPending := t.stepper.intPending, intIe := t.stepper.intIe }
    video := t.video
    env := t.env }

theorem BeforeStep.trans {s t u : State} (h : BeforeStep s t) (h' : BeforeStep t u) : BeforeStep s u := by
  unfold BeforeStep at *
  rw [h'] ; rw [h]

theorem RequestsOnly.beforeStep {s t : State} (h : RequestsOnly s t) : BeforeStep s t := by
  unfold RequestsOnly at h
  unfold BeforeStep
  rw [h]

theorem sync_beforeStep (s : State) : BeforeStep s s.sync := by
  unfold BeforeStep
  rw [sync_eq]
  split <;> rfl

theorem syncTick_beforeStep (s : State) : BeforeStep s s.syncTick := by
  unfold State.syncTick
  split
  · exact sync_beforeStep s
  · rfl

theorem driveKeypad_beforeStep (s : State) : BeforeStep s s.driveKeypad := by
  unfold State.driveKeypad
  split <;> rfl

/-- Everything that the Q callback and the video controller may change before the CPU step (40 R123). -/
theorem machineCycle_beforeStep (s : State) : BeforeStep s s.qOut.syncTick :=
  (qOut_only s).beforeStep.trans (syncTick_beforeStep _)

theorem BeforeStep.memRead {s t : State} (h : BeforeStep s t) (a : Word) : t.memRead a = s.memRead a := by
  rw [h]; rfl

theorem BeforeStep.reg {s t : State} (h : BeforeStep s t) (n : Nibble) : t.reg n = s.reg n := by
  rw [h]; rfl

theorem BeforeStep.pc {s t : State} (h : BeforeStep s t) : t.pc = s.pc := by
  rw [h]; rfl

/-- CLOCK_HZ is the requested frequency, clamped (70 R386). -/
theorem clampHz_val (f : Frequency) : (clampHz f).val = min f.val Config.maxHz.val := by
  unfold clampHz
  split
  · rw [min_eq_left ‹_›]
  · rw [min_eq_right (le_of_lt (not_le.1 ‹_›))]

/-- Outside Run a step is the host's turn alone (40 R124, 70 R382). -/
theorem step_outside_run {s : State} (h : s.hostTurn.clock.mode ≠ .run) : step s = .next s.hostTurn := by
  simp [step, State.boundary, h, State.finishInstruction, State.midInstruction]

/-- A turn of the host with nothing scripted only drives the keypad's line. -/
theorem hostTurn_nil {s : State} (h : s.env.script = []) : s.hostTurn = s.driveKeypad := by
  unfold State.hostTurn
  rw [h]

/-! ## The script is the host's -/

theorem react_script (s : State) : s.react.env.script = s.env.script := by
  rw [react_env]

theorem emit_script (s : State) (b : Bool) (o : Output) : (s.emit b o).env.script = s.env.script := by
  rw [emit_eq]

theorem qOut_script (s : State) : s.qOut.env.script = s.env.script := by
  unfold State.qOut
  split
  · rw [react_script, emit_script]
  · rfl

/-! ## The CPU step -/

/-- The fetch cycle (40 R126). -/
theorem fetchCycle_eq (s : State) (adv : Bool) :
    s.fetchCycle adv = { s.afterRead s.pc with
      cpu := { (s.setReg s.cpu.p (if s.memRead s.pc ≠ 0 ∨ adv then s.pc + 1 else s.pc)).cpu with
        i := highNibble (s.memRead s.pc), n := lowNibble (s.memRead s.pc) }
      stepper := { s.stepper with
        cycle := .execute, execLeft := execCycles (s.memRead s.pc)
        idle := decide (s.memRead s.pc = 0), first := true } } := rfl

/-- After the last execute cycle the machine arbitrates, and after another it stays in Execute (40 R128, R129). -/
theorem finishExecute_cases (s : State) :
    (s.stepper.execLeft ≤ 1 ∧ s.finishExecute =
      ({ s with stepper := { s.stepper with first := false, execLeft := 0 } } : State).arbitrate) ∨
    (2 ≤ s.stepper.execLeft ∧ s.finishExecute =
      { s with stepper := { s.stepper with first := false, execLeft := s.stepper.execLeft - 1 } }) := by
  unfold State.finishExecute
  by_cases h : s.stepper.execLeft ≤ 1
  · have h0 : s.stepper.execLeft - 1 = 0 := by omega
    exact .inl ⟨h, by simp [h0]⟩
  · have h0 : s.stepper.execLeft - 1 ≠ 0 := by omega
    exact .inr ⟨by omega, by simp [h0]⟩

/-- What supplying or delivering a transferred byte may change: requests, the host's side and the display cursor
(40 R134, R135, 60 R327). -/
def TransferOnly (s t : State) : Prop :=
  t = { s with
    stepper := { s.stepper with
      slotIn := t.stepper.slotIn, slotOut := t.stepper.slotOut
      intPending := t.stepper.intPending, intIe := t.stepper.intIe }
    video := { s.video with cursor := t.video.cursor }
    env := t.env }

theorem RequestsOnly.transferOnly {s t : State} (h : RequestsOnly s t) : TransferOnly s t := by
  unfold RequestsOnly at h
  unfold TransferOnly
  rw [h]

theorem transferByte_only (s : State) (d : Descriptor) : TransferOnly s (s.transferByte d).2 := by
  unfold State.transferByte
  split
  · rfl
  · exact (((emit_only _ _ _).trans (react_only _)).trans (supply_only _)).transferOnly
  · exact (supply_only _).transferOnly

theorem deliver_only (s : State) (d : Descriptor) (b : Byte) : TransferOnly s (s.deliver d b) := by
  unfold State.deliver
  split
  · rfl
  · exact ((emit_only _ _ _).trans (react_only _)).transferOnly
  · rw [dmaOutByte_eq]; rfl

/-! ## One pulse after another -/

/-- Eight pulses make a machine cycle only when the phase comes back to 0 (40 R122). -/
theorem clockPulse_cases (s : State) :
    ((s.clock.pulsePhase + 1) % Config.pulsesPerCycle = 0 ∧
      s.clockPulse = ({ s with clock := { s.clock with pulsePhase := 0 } } : State).machineCycle) ∨
    ((s.clock.pulsePhase + 1) % Config.pulsesPerCycle ≠ 0 ∧
      s.clockPulse = .next { s with clock := { s.clock with
        pulsePhase := (s.clock.pulsePhase + 1) % Config.pulsesPerCycle } }) := by
  unfold State.clockPulse
  by_cases h : (s.clock.pulsePhase + 1) % Config.pulsesPerCycle = 0
  · exact .inl ⟨h, by simp only [h, if_true]⟩
  · exact .inr ⟨h, by simp only [h, if_false]⟩

end Sys2Proof.Machine
end

