-- ==== Sys2Proof/Laws/Clock.lean ====
section
/-! SUPPORT. A machine cycle neither reads nor writes the control mode and the time: every operation of it commutes with a
change of the clock. So `step(now)` (40 R120) runs the same machine cycles whatever its accumulator holds. -/

namespace Sys2Proof.Machine

/-- `s` with another clock. -/
def State.withClock (s : State) (c : Clock) : State := { s with clock := c }

/-- A change of the state of a `next`. -/
def mapNext (f : State → State) : Result → Result
  | .next s => .next (f s)
  | .fault e => .fault e
  | .refused e => .refused e

variable (s : State) (c : Clock)

/-! ## Calls and requests -/

theorem emit_withClock (b : Bool) (o : Output) : (s.withClock c).emit b o = (s.emit b o).withClock c := by
  cases b <;> rfl

theorem request_withClock (r : Request) : (s.withClock c).request r = (s.request r).withClock c := by
  cases r with
  | dma d q =>
    simp only [State.request, State.issueDma]
    split
    · rfl
    · show (match s.stepper.slot d with | some _ => _ | none => _) = _
      cases s.stepper.slot d <;> rfl
  | interrupt =>
    simp only [State.request, State.issueInterrupt]
    show (if s.stepper.intPending = true then _ else _) = _
    split <;> rfl

theorem requests_withClock (rs : List Request) :
    rs.foldl State.request (s.withClock c) = (rs.foldl State.request s).withClock c := by
  induction rs generalizing s with
  | nil => rfl
  | cons r rs ih => rw [List.foldl_cons, request_withClock, ih, List.foldl_cons]

theorem react_withClock : (s.withClock c).react = s.react.withClock c := by
  unfold State.react
  show (match s.env.reactions with | [] => _ | rs :: rest => _) = _
  cases s.env.reactions with
  | nil => rfl
  | cons rs rest => exact requests_withClock { s with env := { s.env with reactions := rest } } c rs

theorem supply_withClock : (s.withClock c).supply = (s.supply.1, s.supply.2.withClock c) := by
  rw [supply_eq, supply_eq]; rfl

theorem qOut_withClock : (s.withClock c).qOut = s.qOut.withClock c := by
  unfold State.qOut
  show (if s.plat.wiring.attached.qOut = true then _ else _) = _
  split
  · exact (congrArg State.react (emit_withClock s c true (.q s.cpu.q))).trans (react_withClock _ c)
  · rfl

/-! ## The video controller -/

/-- A conditional operation. -/
theorem ite_withClock {f : State → State} (h : ∀ u : State, f (u.withClock c) = (f u).withClock c) (b : Bool) (u : State) :
    (if b = true then f (u.withClock c) else u.withClock c) = (if b = true then f u else u).withClock c := by
  cases b
  · rfl
  · exact h u

theorem sync_withClock : (s.withClock c).sync = s.sync.withClock c := by
  let flag (u : State) := if s.video.writesFlag then u.setEf Config.videoEf s.video.inFlagWindow else u
  let int (u : State) := if s.video.requestsInterrupt then u.issueInterrupt else u
  let dma (u : State) :=
    if s.video.requestsDma then u.issueDma .output ⟨Config.dmaBurst, Config.videoCtx, .video⟩ else u
  let show' (u : State) := if s.video.presents then u.present else u
  have h1 : ∀ u, flag (u.withClock c) = (flag u).withClock c :=
    ite_withClock c (f := (·.setEf Config.videoEf s.video.inFlagWindow)) (fun _ => rfl) _
  have h2 : ∀ u, int (u.withClock c) = (int u).withClock c :=
    ite_withClock c (f := State.issueInterrupt) (fun u => request_withClock u c .interrupt) _
  have h3 : ∀ u, dma (u.withClock c) = (dma u).withClock c :=
    ite_withClock c (f := (·.issueDma .output ⟨Config.dmaBurst, Config.videoCtx, .video⟩))
      (fun u => request_withClock u c (.dma .output _)) _
  have h4 : ∀ u, show' (u.withClock c) = (show' u).withClock c :=
    ite_withClock c (f := State.present) (fun u => emit_withClock u c _ _) _
  have key : show' (dma (int (flag (s.withClock c)))) = (show' (dma (int (flag s)))).withClock c := by
    rw [h1, h2, h3, h4]
  exact congrArg (fun u : State => { u with video := u.video.advance }) key

theorem syncTick_withClock : (s.withClock c).syncTick = s.syncTick.withClock c := by
  unfold State.syncTick
  show (if s.plat.wiring.attached.sync = true then _ else _) = _
  split
  · exact sync_withClock s c
  · rfl

theorem setDisplay_withClock (e : Bool) : (s.withClock c).setDisplay e = (s.setDisplay e).withClock c := by
  unfold State.setDisplay State.clearFrame State.present
  cases e <;> simp [emit_eq, State.withClock]

/-! ## Memory and ports -/

theorem memWrite_withClock (a : Word) (v : Byte) : (s.withClock c).memWrite a v = (s.memWrite a v).withClock c := by
  rw [memWrite_eq, memWrite_eq s, memWrite_board]
  show _ = State.withClock _ c
  rw [memWrite_board]; rfl

theorem driveKeypad_withClock : (s.withClock c).driveKeypad = s.driveKeypad.withClock c := by
  unfold State.driveKeypad
  show (match s.plat.wiring.keypadEf with | some k => _ | none => _) = _
  cases s.plat.wiring.keypadEf <;> rfl

theorem setRate_withClock (b : Byte) : (s.withClock c).setRate b = (s.setRate b).withClock c := by
  unfold State.setRate
  show (match s.plat.board with | .vp595 => _ | _ => _) = _
  cases s.plat.board <;> rfl

theorem stepBackground_withClock (d : Dir) (n : Port) :
    (s.withClock c).stepBackground d n = (s.stepBackground d n).withClock c := by
  unfold State.stepBackground
  show (match s.plat.board with | .vp590 b => _ | _ => _) = _
  cases s.plat.board with
  | vp590 b =>
    show (if Config.vp590BackgroundPort = (d, n) then _ else _) = State.withClock (if _ then _ else _) c
    split <;> rfl
  | _ => rfl

theorem deviceOut_withClock (d : OutDevice) (b : Byte) :
    (s.withClock c).deviceOut d b = (s.deviceOut d b).withClock c := by
  cases d with
  | ignored => rfl
  | displayOff => exact setDisplay_withClock s c false
  | keyLatch => exact driveKeypad_withClock { s with plat := { s.plat with keyLatch := lowNibble b } } c
  | divider => exact setRate_withClock s c b
  | external => exact react_withClock s c

theorem deviceIn_withClock (d : InDevice) :
    (s.withClock c).deviceIn d = ((s.deviceIn d).1, (s.deviceIn d).2.withClock c) := by
  cases d with
  | nothing => rfl
  | displayOn => rfl
  | external => simp only [State.deviceIn, react_withClock, supply_withClock]

theorem portOut_withClock (n : Port) (b : Byte) : (s.withClock c).portOut n b = (s.portOut n b).withClock c := by
  unfold State.portOut
  show State.touch (if s.plat.wiring.attached.portOut = true then _ else _) _ _ = _
  split
  · rw [emit_withClock]; erw [deviceOut_withClock, stepBackground_withClock]; rfl
  · rfl

theorem portIn_withClock (n : Port) : (s.withClock c).portIn n = ((s.portIn n).1, (s.portIn n).2.withClock c) := by
  unfold State.portIn
  show (if s.plat.wiring.attached.portIn = true then _ else _) = _
  split
  · have h : ∀ (r r' : Byte × State) (b : Bool), r = (r'.1, r'.2.withClock c) →
        (if b = true then Config.vp590BackgroundByte else r.1, (r.2.stepBackground .input n).touch .portIn n.toNat) =
        (if b = true then Config.vp590BackgroundByte else r'.1,
          ((r'.2.stepBackground .input n).touch .portIn n.toNat).withClock c) := by
      rintro r r' b rfl
      dsimp only
      rw [stepBackground_withClock]; rfl
    exact h _ _ (s.atBackground n) (by rw [emit_withClock]; exact deviceIn_withClock _ c _)
  · rfl

/-! ## Instructions -/

theorem inPort_withClock (n : Port) : (s.withClock c).inPort n = (s.inPort n).withClock c := by
  unfold State.inPort
  rw [portIn_withClock]
  exact congrArg (fun u : State => u.setD _) (memWrite_withClock _ c _ _)

theorem longBranch_withClock (b : Bool) (hl : Word) :
    (s.withClock c).longBranch b hl = (s.longBranch b hl).withClock c := by
  cases b <;> rfl

theorem longSkip_withClock (b : Bool) : (s.withClock c).longSkip b = (s.longSkip b).withClock c := by
  cases b <;> rfl

theorem exec_withClock (i : Instr) : exec i (s.withClock c) = mapNext (State.withClock · c) (exec i s) := by
  cases i
  case out1 | out2 | out3 | out4 | out5 | out6 | out7 =>
    exact congrArg Host.Outcome.next (portOut_withClock
      ((s.afterRead (s.reg s.cpu.x)).setReg s.cpu.x (inc16 (s.reg s.cpu.x))) c _ (s.memRead (s.reg s.cpu.x)))
  case inp0 | inp1 | inp2 | inp3 | inp4 | inp5 | inp6 | inp7 =>
    exact congrArg Host.Outcome.next (inPort_withClock s c _)
  case lbr | lbq | lbz | lbdf | lbnq | lbnz | lbnf =>
    exact congrArg Host.Outcome.next (longBranch_withClock s c _ _)
  case lsnq | lsnz | lsnf | lskp | lsie | lsq | lsz | lsdf =>
    exact congrArg Host.Outcome.next (longSkip_withClock s c _)
  case str | sav => exact congrArg Host.Outcome.next (memWrite_withClock s c _ _)
  case stxd =>
    exact congrArg (fun u : State => Host.Outcome.next (u.setReg s.cpu.x (dec16 (s.reg s.cpu.x))))
      (memWrite_withClock s c _ _)
  case mark =>
    exact congrArg (fun u : State => Host.Outcome.next ((u.setX s.cpu.p).setReg 2 (dec16 (s.reg 2))))
      (memWrite_withClock (s.setT _) c _ _)
  all_goals rfl

/-! ## The machine cycle -/

theorem arbitrate_withClock : (s.withClock c).arbitrate = s.arbitrate.withClock c := by
  unfold State.arbitrate State.accept State.withClock State.goto State.interruptDecision Stepper.slot
  cases s.stepper.slotIn <;> cases s.stepper.slotOut <;> cases s.stepper.intPending <;> rfl

theorem finishExecute_withClock : (s.withClock c).finishExecute = s.finishExecute.withClock c := by
  unfold State.finishExecute
  show (if s.stepper.execLeft - 1 = 0 then _ else _) = State.withClock (if s.stepper.execLeft - 1 = 0 then _ else _) c
  split
  · exact arbitrate_withClock
      { s with stepper := { s.stepper with first := false, execLeft := s.stepper.execLeft - 1 } } c
  · rfl

theorem idleCycle_withClock : (s.withClock c).idleCycle = s.idleCycle.withClock c := by
  unfold State.idleCycle
  show (if (s.stepper.slotIn.isSome || s.stepper.slotOut.isSome || s.stepper.intPending) = true then _ else _) = _
  split
  · exact arbitrate_withClock { s with stepper := { s.stepper with idle := false } } c
  · rfl

theorem executeCycle_withClock : (s.withClock c).executeCycle = mapNext (State.withClock · c) s.executeCycle := by
  unfold State.executeCycle
  show (if s.stepper.idle = true then _ else if s.stepper.first = true then _ else _) = _
  split
  · exact congrArg Host.Outcome.next (idleCycle_withClock s c)
  split
  · obtain ⟨t, ht⟩ := exec_next s.operandInstr s
    show andThen (exec s.operandInstr (s.withClock c)) _ = _
    rw [exec_withClock, ht]
    exact congrArg Host.Outcome.next (finishExecute_withClock t c)
  · exact congrArg Host.Outcome.next (finishExecute_withClock s c)

theorem transfer_withClock (d : Descriptor) : (s.withClock c).transfer d = (s.transfer d).withClock c := by
  rcases d with ⟨⟨⟩, x, ⟨⟩⟩
  · exact congrArg (fun u : State => u.setReg 0 _) (memWrite_withClock s c _ _)
  · simp only [State.transfer, State.transferByte, emit_withClock, react_withClock, supply_withClock]
    rw [memWrite_withClock]; rfl
  · simp only [State.transfer, State.transferByte, supply_withClock]
    rw [memWrite_withClock]; rfl
  · rfl
  · exact (congrArg State.react (emit_withClock ((s.afterRead (s.reg 0)).setReg 0 (inc16 (s.reg 0))) c true _)).trans
      (react_withClock _ c)
  · exact congrArg
      (fun u : State => { u with video := { u.video with cursor := (u.video.cursor + 1) % Config.displayBytes } })
      (emit_withClock ((s.afterRead (s.reg 0)).setReg 0 (inc16 (s.reg 0))) c _ _)

theorem dmaCycle_withClock : (s.withClock c).dmaCycle = s.dmaCycle.withClock c := by
  unfold State.dmaCycle
  show (match s.stepper.queue with | [] => _ | d :: rest => _) = _
  cases s.stepper.queue with
  | nil => exact arbitrate_withClock s c
  | cons d rest =>
    dsimp only
    erw [transfer_withClock { s with stepper := { s.stepper with queue := rest } } c d]
    show (if (State.transfer _ d).stepper.queue = [] then _ else _) = _
    split
    · exact arbitrate_withClock _ c
    · rfl

theorem cpuStep_withClock : (s.withClock c).cpuStep = mapNext (State.withClock · c) s.cpuStep := by
  unfold State.cpuStep
  show (match s.stepper.cycle with | .fetch => _ | .execute => _ | .dma => _ | .interrupt => _) = _
  cases s.stepper.cycle with
  | fetch => rfl
  | execute => exact executeCycle_withClock s c
  | dma => exact congrArg Host.Outcome.next (dmaCycle_withClock s c)
  | interrupt => rfl

/-- A machine cycle does not read the clock. -/
theorem machineCycle_withClock : (s.withClock c).machineCycle = mapNext (State.withClock · c) s.machineCycle := by
  unfold State.machineCycle
  rw [qOut_withClock, syncTick_withClock, cpuStep_withClock]

variable {s}

/-- A machine cycle does not write the clock. -/
theorem machineCycle_clock {t : State} (h : s.machineCycle = .next t) : t.clock = s.clock := by
  have h' := machineCycle_withClock s s.clock
  rw [show s.withClock s.clock = s from rfl, h] at h'
  injection h' with h'
  rw [h']; rfl

end Sys2Proof.Machine
end

