-- ==== Sys2Proof/Laws/Frames.lean ====
section
/-! SUPPORT. The frames of a memory read and of a memory write, and how they compose with changes of the CPU registers. -/

namespace Sys2Proof.Machine

/-- Reading nothing. -/
theorem readFrame_refl (s : State) : ReadFrame [] s s where
  stepper := rfl
  clock := rfl
  video := rfl
  env := rfl
  plat := by simp
  cells _ := rfl
  bytes _ _ := rfl

/-- One read. -/
theorem readFrame_afterRead (s : State) (a : Word) : ReadFrame [a] s (s.afterRead a) where
  stepper := rfl
  clock := rfl
  video := rfl
  env := rfl
  plat := by simp [State.afterRead, State.touch]
  cells _ := rfl
  bytes h b := by rw [afterRead_eq, h]

/-- Two reads. -/
theorem readFrame_afterRead_two (s : State) (a b : Word) : ReadFrame [a, b] s ((s.afterRead a).afterRead b) where
  stepper := rfl
  clock := rfl
  video := rfl
  env := rfl
  plat := by simp [State.afterRead, State.touch, Bool.and_assoc]
  cells _ := rfl
  bytes h c := by
    have : (s.afterRead a).afterRead b = { s with plat := { s.plat with
      latch := ((s.afterRead a).afterRead b).plat.latch } } := rfl
    rw [this, h]

/-- A frame of reads says nothing about the CPU registers. -/
theorem ReadFrame.withCpu {as : List Word} {s t : State} (h : ReadFrame as s t) (c : Cpu) :
    ReadFrame as s { t with cpu := c } :=
  ⟨h.stepper, h.clock, h.video, h.env, h.plat, h.cells, h.bytes⟩

/-- The regions that accesses see do not change where the latch keeps its value. -/
theorem memWrite_map {s : State} {a : Word} {v : Byte} (h : (s.memWrite a v).plat.latch = s.plat.latch) :
    (s.memWrite a v).plat.map = s.plat.map := by
  have hr : (s.memWrite a v).plat.regions = s.plat.regions := by rw [memWrite_eq]
  have hm : (s.memWrite a v).plat.rom = s.plat.rom := by rw [memWrite_eq]
  unfold Platform.map
  rw [hr, hm, h]

/-- A memory write. -/
theorem writeFrame_memWrite (s : State) (a : Word) (v : Byte) : WriteFrame a v s (s.memWrite a v) where
  stepper := by simp
  clock := by simp
  video := by simp
  env := by simp
  plat := by rw [memWrite_eq]
  hooked b h hb := by rw [memWrite_board, h, hb]
  noHook h := by
    rw [memWrite_board]
    rcases h with h | h
    · rw [h]
    · split
      · exact absurd ‹_› (h _)
      · rfl
  stored h k hk := by rw [memWrite_mem, hk]; exact (Memory.read_write h k k v).trans (if_pos rfl)
  cells h k hk := by
    rw [memWrite_mem]
    cases hc : s.writeCell a with
    | none => rfl
    | some j => exact (Memory.read_write h j k v).trans (if_neg fun e => hk (by rw [hc, e]))
  bytes h hl b hb := by
    have hcell : (s.memWrite a v).readCell b = s.readCell b := by
      unfold State.readCell State.select
      rw [memWrite_map hl]
    unfold State.memRead
    rw [hcell, memWrite_mem]
    cases hr : s.readCell b with
    | none => rfl
    | some k =>
      cases hc : s.writeCell a with
      | none => rfl
      | some j =>
        refine (Memory.read_write h j k v).trans (if_neg fun e => ?_)
        rcases hb with hb | hb
        · rw [hr] at hb; cases hb
        · exact hb (by rw [hr, hc, e])

/-- A frame of a write says nothing about the CPU registers after it. -/
theorem WriteFrame.withCpu {a : Word} {v : Byte} {s t : State} (h : WriteFrame a v s t) (c : Cpu) :
    WriteFrame a v s { t with cpu := c } :=
  ⟨h.stepper, h.clock, h.video, h.env, h.plat, h.hooked, h.noHook, h.stored, h.cells, h.bytes⟩

/-- Nor about the CPU registers before it. -/
theorem WriteFrame.ofCpu {a : Word} {v : Byte} {s t : State} {c : Cpu} (h : WriteFrame a v { s with cpu := c } t) :
    WriteFrame a v s t :=
  ⟨h.stepper, h.clock, h.video, h.env, h.plat, h.hooked, h.noHook, h.stored, h.cells, h.bytes⟩

/-- Nor about anything else outside the platform and the clock, which a transfer's callback may change (40 R134, R135). -/
theorem WriteFrame.ofPlat {a : Word} {v : Byte} {s t s' : State} (h : WriteFrame a v s t) (hp : s.plat = s'.plat)
    (hc : s.clock = s'.clock) :
    WriteFrame a v s' { t with stepper := s'.stepper, video := s'.video, env := s'.env } := by
  obtain ⟨_, _, _, _, _, _⟩ := s
  obtain ⟨_, _, _, _, _, _⟩ := s'
  cases hp
  cases hc
  exact ⟨rfl, h.clock, rfl, rfl, h.plat, h.hooked, h.noHook, h.stored, h.cells, h.bytes⟩

/-- An opcode byte is the two nibbles that I and N hold. -/
theorem packNibbles_opcode (op : Byte) : packNibbles (highNibble op) (lowNibble op) = op := by
  revert op; decide

end Sys2Proof.Machine
end

