-- ==== Sys2Proof/Laws/Operands.lean ====
section
/-! SUPPORT. What the ALU functions and the operand forms can do, said once. -/

namespace Sys2Proof.Machine

/-! ## The ALU functions -/

/-- The sum modulo 256, and the carry, or the parameter's value in the corner (43 R191, R193). -/
theorem addOp_eq (c : DfCorner) (a b : Byte) (cin : Bool) :
    (addOp c a b cin).1.toNat = (a.toNat + b.toNat + cin.toNat) % 256 ∧
    (addOp c a b cin).2 = if b.toNat + cin.toNat ≤ 255 then decide (256 ≤ a.toNat + b.toNat + cin.toNat)
      else decide (c = .trueCarry) := by
  refine ⟨by simp [addOp], ?_⟩
  simp only [addOp]
  split
  · have := a.isLt
    simp only [BitVec.lt_def, BitVec.toNat_ofNat, decide_eq_decide]
    omega
  · cases c <;> rfl

/-- The difference modulo 256, and the absence of a borrow, or the parameter's value in the corner (43 R192, R193). -/
theorem subOp_eq (c : DfCorner) (m b : Byte) (bin : Bool) :
    ((subOp c m b bin).1.toNat : Int) = ((m.toNat : Int) - b.toNat - bin.toNat) % 256 ∧
    (subOp c m b bin).2 = if b.toNat + bin.toNat ≤ 255 then decide (b.toNat + bin.toNat ≤ m.toNat)
      else decide (c = .wrapped) := by
  have h1 : ((subOp c m b bin).1.toNat : Int) = ((m.toNat : Int) - b.toNat - bin.toNat) % 256 := by
    simp only [subOp, BitVec.toNat_ofInt]
    omega
  refine ⟨h1, ?_⟩
  simp only [subOp] at h1 ⊢
  split
  · have := m.isLt
    rw [← decide_not, decide_eq_decide, BitVec.lt_def]
    omega
  · cases c <;> rfl

/-- A right shift by one, with `c` shifted in (43 R213, R214). -/
theorem shiftRight_eq (d : Byte) (c : Bool) :
    shiftRight d c = ((if c then 0x80 else 0) ||| d >>> 1, d.getLsbD 0) := by
  revert d c; decide

/-- A left shift by one, with `c` shifted in (43 R215, R216). -/
theorem shiftLeft_eq (d : Byte) (c : Bool) :
    shiftLeft d c = (d <<< 1 ||| (if c then 1 else 0), d.getLsbD 7) := by
  revert d c; decide

/-! ## The halves of a word -/

theorem withLow_eq (v : Word) (b : Byte) : withLow v b = (v &&& 0xFF00) ||| b.setWidth 16 := by
  unfold withLow highByte
  ext i hi
  simp only [BitVec.getElem_append, BitVec.getElem_or, BitVec.getElem_and, BitVec.getElem_setWidth]
  interval_cases i <;> simp

theorem withHigh_eq (v : Word) (b : Byte) : withHigh v b = (v &&& 0x00FF) ||| (b.setWidth 16 <<< 8) := by
  unfold withHigh lowByte
  apply BitVec.eq_of_getElem_eq
  intro i hi
  have : (b ++ BitVec.extractLsb' 0 8 v)[i]'hi = if h : i < 8 then v[i] else b[i - 8] := by
    rw [BitVec.getElem_append]
    split
    · simp; rfl
    · simp
  simp only [this]
  simp only [BitVec.getElem_or, BitVec.getElem_and, BitVec.getElem_shiftLeft, BitVec.getElem_setWidth]
  interval_cases i <;> simp

/-! ## The operand forms -/

/-- Taking an immediate reads at R[P] and passes it. -/
theorem takeImm_eq (s : State) : s.takeImm = (s.afterRead s.pc).setReg s.cpu.p (s.pc + 1) := rfl

/-- A short branch reads at R[P] and writes R[P] alone (44 R230). -/
theorem shortBranch_eq (s : State) (cond : Bool) (a : Byte) :
    s.shortBranch cond a =
      (s.afterRead s.pc).setReg s.cpu.p (if cond then (s.pc &&& 0xFF00) ||| a.setWidth 16 else s.pc + 1) := by
  simp only [State.shortBranch, State.setPc, shortTarget, withLow_eq]; rfl

/-- A long branch reads its two bytes when it is taken, and writes R[P] alone (44 R250). -/
theorem longBranch_eq (s : State) (cond : Bool) (hl : Word) :
    s.longBranch cond hl = if cond then ((s.afterRead s.pc).afterRead (s.pc + 1)).setReg s.cpu.p hl
      else s.setReg s.cpu.p (s.pc + 2) := by
  have : inc16 (inc16 s.pc) = s.pc + 2 := by unfold inc16; rw [BitVec.add_assoc]; rfl
  simp only [State.longBranch, State.setPc, this]; rfl

/-- A long skip reads nothing and writes R[P] alone (44 R251). -/
theorem longSkip_eq (s : State) (cond : Bool) :
    s.longSkip cond = if cond then s.setReg s.cpu.p (s.pc + 2) else s := by
  have : inc16 (inc16 s.pc) = s.pc + 2 := by unfold inc16; rw [BitVec.add_assoc]; rfl
  simp only [State.longSkip, State.setPc, this]

/-- An ALU result goes to D and DF. -/
theorem setAlu_eq (s : State) (r : Byte × Bool) :
    s.setAlu r = { s with cpu := { s.cpu with d := r.1, df := r.2 } } := rfl

end Sys2Proof.Machine
end

