-- ==== Sys2Proof/Tests/Slice0.lean ====
section
/-! SUPPORT. The model's own tests: the well-formedness checks, the decoding of words written out from the opcode map, one
step per vector of spec/95_test_vectors.md, and a witness for every statement that has hypotheses. -/

namespace Sys2Proof.Tests

open Sys2Proof.Machine

-- Each theorem in turn: a hundred at once, each with its own stack, ask for more memory than the check allows.
set_option Elab.async false

/-! ## Well-formedness: a register number of 16 is refused in every form that has one -/

theorem test_refuses_inc : (Instr.inc 16).wellFormed = false := by decide
theorem test_refuses_dec : (Instr.dec 16).wellFormed = false := by decide
theorem test_refuses_lda : (Instr.lda 16).wellFormed = false := by decide
theorem test_refuses_str : (Instr.str 16).wellFormed = false := by decide
theorem test_refuses_glo : (Instr.glo 16).wellFormed = false := by decide
theorem test_refuses_ghi : (Instr.ghi 16).wellFormed = false := by decide
theorem test_refuses_plo : (Instr.plo 16).wellFormed = false := by decide
theorem test_refuses_phi : (Instr.phi 16).wellFormed = false := by decide
theorem test_refuses_sep : (Instr.sep 16).wellFormed = false := by decide
theorem test_refuses_sex : (Instr.sex 16).wellFormed = false := by decide
theorem test_accepts_sex : (Instr.sex 15).wellFormed = true := by decide

/-! ## Decoding: words written out from the opcode map (30 R101, R104), every constructor once -/

/-- The instruction in a list of bytes that it fills. -/
def decodeAlone (bs : List Byte) : Option Instr :=
  match decode bs with
  | .ok (i, []) => some i
  | _ => none

theorem test_decode_row_0 : [
    [0x00], [0x01], [0x02], [0x03], [0x04], [0x05], [0x06], [0x07], [0x08], [0x09], [0x0A], [0x0B], [0x0C],
    [0x0D], [0x0E], [0x0F]].map decodeAlone = [
    .idl, .ldn1, .ldn2, .ldn3, .ldn4, .ldn5, .ldn6, .ldn7, .ldn8, .ldn9, .ldn10, .ldn11, .ldn12, .ldn13, .ldn14,
    .ldn15].map some := by decide +kernel

theorem test_decode_register_forms : [
    [0x10], [0x20], [0x40], [0x50], [0x80], [0x90], [0xA0], [0xB0], [0xD0], [0xE0], [0x1A], [0x2A], [0x4A],
    [0x5A], [0x8A], [0x9A], [0xAA], [0xBA], [0xDA], [0xEA], [0x1F], [0x2F], [0x4F], [0x5F], [0x8F], [0x9F],
    [0xAF], [0xBF], [0xDF], [0xEF]].map decodeAlone = [
    .inc 0, .dec 0, .lda 0, .str 0, .glo 0, .ghi 0, .plo 0, .phi 0, .sep 0, .sex 0, .inc 10, .dec 10, .lda 10,
    .str 10, .glo 10, .ghi 10, .plo 10, .phi 10, .sep 10, .sex 10, .inc 15, .dec 15, .lda 15, .str 15, .glo 15,
    .ghi 15, .plo 15, .phi 15, .sep 15, .sex 15].map some := by decide +kernel

theorem test_decode_row_3 : [
    [0x30, 0x40], [0x31, 0x41], [0x32, 0x42], [0x33, 0x43], [0x34, 0x44], [0x35, 0x45], [0x36, 0x46],
    [0x37, 0x47], [0x38, 0x48], [0x39, 0x49], [0x3A, 0x4A], [0x3B, 0x4B], [0x3C, 0x4C], [0x3D, 0x4D],
    [0x3E, 0x4E], [0x3F, 0x4F]].map decodeAlone = [
    .br 0x40, .bq 0x41, .bz 0x42, .bdf 0x43, .b1 0x44, .b2 0x45, .b3 0x46, .b4 0x47, .skp 0x48, .bnq 0x49,
    .bnz 0x4A, .bnf 0x4B, .bn1 0x4C, .bn2 0x4D, .bn3 0x4E, .bn4 0x4F].map some := by decide +kernel

theorem test_decode_row_6 : [
    [0x60], [0x61], [0x62], [0x63], [0x64], [0x65], [0x66], [0x67], [0x68], [0x69], [0x6A], [0x6B], [0x6C],
    [0x6D], [0x6E], [0x6F]].map decodeAlone = [
    .irx, .out1, .out2, .out3, .out4, .out5, .out6, .out7, .inp0, .inp1, .inp2, .inp3, .inp4, .inp5, .inp6,
    .inp7].map some := by decide +kernel

theorem test_decode_row_7 : [
    [0x70], [0x71], [0x72], [0x73], [0x74], [0x75], [0x76], [0x77], [0x78], [0x79], [0x7A], [0x7B],
    [0x7C, 0x9C], [0x7D, 0x9D], [0x7E], [0x7F, 0x9F]].map decodeAlone = [
    .ret, .dis, .ldxa, .stxd, .adc, .sdb, .shrc, .smb, .sav, .mark, .req, .seq, .adci 0x9C, .sdbi 0x9D, .shlc,
    .smbi 0x9F].map some := by decide +kernel

theorem test_decode_row_C : [
    [0xC0, 0x12, 0x30], [0xC1, 0x12, 0x31], [0xC2, 0x12, 0x32], [0xC3, 0x12, 0x33], [0xC4], [0xC5], [0xC6],
    [0xC7], [0xC8], [0xC9, 0x12, 0x39], [0xCA, 0x12, 0x3A], [0xCB, 0x12, 0x3B], [0xCC], [0xCD], [0xCE], [0xCF]].map decodeAlone = [
    .lbr 0x1230, .lbq 0x1231, .lbz 0x1232, .lbdf 0x1233, .nop, .lsnq, .lsnz, .lsnf, .lskp, .lbnq 0x1239,
    .lbnz 0x123A, .lbnf 0x123B, .lsie, .lsq, .lsz, .lsdf].map some := by decide +kernel

theorem test_decode_row_F : [
    [0xF0], [0xF1], [0xF2], [0xF3], [0xF4], [0xF5], [0xF6], [0xF7], [0xF8, 0x88], [0xF9, 0x89], [0xFA, 0x8A],
    [0xFB, 0x8B], [0xFC, 0x8C], [0xFD, 0x8D], [0xFE], [0xFF, 0x8F]].map decodeAlone = [
    .ldx, .or, .and, .xor, .add, .sd, .shr, .sm, .ldi 0x88, .ori 0x89, .ani 0x8A, .xri 0x8B, .adi 0x8C,
    .sdi 0x8D, .shl, .smi 0x8F].map some := by decide +kernel


/-! ## One step: the vectors of 95 section 2 -/

/-- The address space of 95 section 0: one read-write region over all addresses. -/
def ram : Region := ⟨0x0000, 0xFFFF, 0, 0x10000, true, true, none⟩

/-- The wiring of 95 section 0: no callback but the video controller's, no keypad. -/
def wires : Wiring :=
  { Wiring.vip with keypadEf := none, release := [], attached := ⟨false, true, false, false, false, false, false⟩ }

/-- A machine in Run with the given CPU and memory, in the configuration of 95 section 0. -/
def bare (c : Cpu) (m : Memory) : State :=
  { State.reset with
    cpu := c
    clock := { Clock.reset with mode := .run }
    plat := { Platform.reset with regions := [ram], rom := none, mem := m, wiring := wires } }

/-- The CPU of 95 section 2: P = 3, R[3] = 0x0100, X = 2, R[2] = 0x0200. -/
def baseCpu : Cpu :=
  { Cpu.reset with p := 3, x := 2, r := #v[0, 0, 0x0200, 0x0100, 0, 0, 0, 0, 0, 0, 0, 0, 0, 0, 0, 0] }

def setR (n : Fin 16) (v : Word) (c : Cpu) : Cpu := { c with r := c.r.set n v }
def setD (v : Byte) (c : Cpu) : Cpu := { c with d := v }
def setDf (v : Bool) (c : Cpu) : Cpu := { c with df := v }
def setT (v : Byte) (c : Cpu) : Cpu := { c with t := v }
def setP (v : Nibble) (c : Cpu) : Cpu := { c with p := v }
def setX (v : Nibble) (c : Cpu) : Cpu := { c with x := v }
def setQ (v : Bool) (c : Cpu) : Cpu := { c with q := v }
def setIe (v : Bool) (c : Cpu) : Cpu := { c with ie := v }
def setEfs (v : Vector Bool 4) (c : Cpu) : Cpu := { c with ef := v }

/-- Some changes of the CPU, in order. -/
def changed (c : Cpu) (fs : List (Cpu → Cpu)) : Cpu := fs.foldl (fun c f => f c) c

/-- Some bytes stored one by one. -/
def stored (m : Memory) (cells : List Host.Cell) : Memory := cells.foldl (fun m c => m.write c.1 c.2) m

/-- A list of bytes at an address and the ones after it, wrapping. -/
def placed (m : Memory) (a : Word) : List Byte → Memory
  | [] => m
  | b :: bs => placed (m.write a.toNat b) (inc16 a) bs

/-- One step from the base state with the start values, memory cells and instruction bytes given ends with exactly the
CPU and memory changes given. -/
def vector (bytes : List Byte) (start : List (Cpu → Cpu)) (cells : List Host.Cell) (want : List (Cpu → Cpu))
    (stores : List Host.Cell) : Bool :=
  let c := changed baseCpu start
  let m := placed (stored [] cells) (c.r[c.p.toNat]'c.p.isLt) bytes
  match step (bare c m) with
  | .next t => decide (t.cpu = { changed c want with i := t.cpu.i, n := t.cpu.n }) &&
      decide (packNibbles t.cpu.i t.cpu.n = bytes.headD 0) && decide (t.plat.mem = stored m stores)
  | _ => false

/-- Rows 41-1, 41-2, 41-3, 41-4, 41-5, 41-6, 41-7, 41-8, 41-9, 41-10. -/
theorem test_loads_and_stores : [
    vector [0x05] [setR 5 0x0300] [(0x0300, 0x3C)] [setD 0x3C, setR 3 0x0101] [],
    vector [0x03, 0x99] [] [] [setD 0x99, setR 3 0x0101] [],
    vector [0x45] [setR 5 0x0300] [(0x0300, 0x3C)] [setD 0x3C, setR 3 0x0101, setR 5 0x0301] [],
    vector [0x45] [setR 5 0xFFFF] [(0xFFFF, 0x77)] [setD 0x77, setR 3 0x0101, setR 5 0x0000] [],
    vector [0xF0] [] [(0x0200, 0x81)] [setD 0x81, setR 3 0x0101] [],
    vector [0x72] [] [(0x0200, 0x81)] [setD 0x81, setR 2 0x0201, setR 3 0x0101] [],
    vector [0xF8, 0x5A] [] [] [setD 0x5A, setR 3 0x0102] [],
    vector [0x55] [setD 0xA7, setR 5 0x0300] [] [setR 3 0x0101] [(0x0300, 0xA7)],
    vector [0x73] [setD 0x5A] [] [setR 2 0x01FF, setR 3 0x0101] [(0x0200, 0x5A)],
    vector [0x73] [setD 0x5A, setR 2 0x0000] [] [setR 2 0xFFFF, setR 3 0x0101] [(0x0000, 0x5A)]].all id = true := by decide +kernel

/-- Rows 42-11, 42-12, 42-13, 42-14, 42-15, 42-16, 42-17, 42-18, 42-19, 42-20, 42-21, 42-22. -/
theorem test_registers : [
    vector [0x11] [setR 1 0x00FF] [] [setR 1 0x0100, setR 3 0x0101] [],
    vector [0x11] [setR 1 0xFFFF] [] [setR 1 0x0000, setR 3 0x0101] [],
    vector [0x21] [setR 1 0x0100] [] [setR 1 0x00FF, setR 3 0x0101] [],
    vector [0x21] [setR 1 0x0000] [] [setR 1 0xFFFF, setR 3 0x0101] [],
    vector [0x60] [] [] [setR 2 0x0201, setR 3 0x0101] [],
    vector [0x84] [setR 4 0x1234] [] [setD 0x34, setR 3 0x0101] [],
    vector [0x94] [setR 4 0x1234] [] [setD 0x12, setR 3 0x0101] [],
    vector [0xA4] [setD 0xAB, setR 4 0x1234] [] [setR 3 0x0101, setR 4 0x12AB] [],
    vector [0xB4] [setD 0xAB, setR 4 0x1234] [] [setR 3 0x0101, setR 4 0xAB34] [],
    vector [0xA3] [setD 0x40] [] [setR 3 0x0140] [],
    vector [0xD5] [setR 5 0x0400] [] [setP 5, setR 3 0x0101] [],
    vector [0xE7] [] [] [setX 7, setR 3 0x0101] []].all id = true := by decide +kernel

/-- Rows 43-23, 43-24, 43-25, 43-26, 43-27, 43-28. -/
theorem test_logic : [
    vector [0xF1] [setD 0x0F] [(0x0200, 0xF0)] [setD 0xFF, setDf false, setR 3 0x0101] [],
    vector [0xF9, 0x18] [setD 0x81] [] [setD 0x99, setDf false, setR 3 0x0102] [],
    vector [0xF2] [setD 0x3C] [(0x0200, 0x0F)] [setD 0x0C, setDf false, setR 3 0x0101] [],
    vector [0xFA, 0x0F] [setD 0xA5] [] [setD 0x05, setDf false, setR 3 0x0102] [],
    vector [0xF3] [setD 0xFF] [(0x0200, 0x0F)] [setD 0xF0, setDf false, setR 3 0x0101] [],
    vector [0xFB, 0xFF] [setD 0x55] [] [setD 0xAA, setDf false, setR 3 0x0102] []].all id = true := by decide +kernel

/-- Rows 43-29, 43-30, 43-32, 43-33, 43-34, 43-35, 43-39. -/
theorem test_additions : [
    vector [0xF4] [setD 0xF0] [(0x0200, 0x20)] [setD 0x10, setDf true, setR 3 0x0101] [],
    vector [0xF4] [setD 0xFF, setDf false] [(0x0200, 0x01)] [setD 0x00, setDf true, setR 3 0x0101] [],
    vector [0xFC, 0x28] [setD 0x3A] [] [setD 0x62, setDf false, setR 3 0x0102] [],
    vector [0xFC, 0x00] [setD 0x00, setDf true] [] [setD 0x00, setDf false, setR 3 0x0102] [],
    vector [0x74] [setD 0x3A, setDf true] [(0x0200, 0x28)] [setD 0x63, setDf false, setR 3 0x0101] [],
    vector [0x74] [setD 0xFF, setDf true] [(0x0200, 0x00)] [setD 0x00, setDf true, setR 3 0x0101] [],
    vector [0x7C, 0x01] [setD 0x12, setDf true] [] [setD 0x14, setDf false, setR 3 0x0102] []].all id = true := by decide +kernel

/-- Rows 43-42, 43-43, 43-45, 43-46, 43-47, 43-48, 43-52, 43-53. -/
theorem test_subtract_d : [
    vector [0xF5] [setD 0x08] [(0x0200, 0x05)] [setD 0xFD, setDf false, setR 3 0x0101] [],
    vector [0xF5] [setD 0x05] [(0x0200, 0x05)] [setD 0x00, setDf true, setR 3 0x0101] [],
    vector [0xFD, 0x08] [setD 0x05] [] [setD 0x03, setDf true, setR 3 0x0102] [],
    vector [0xFD, 0x00] [setD 0x01] [] [setD 0xFF, setDf false, setR 3 0x0102] [],
    vector [0x75] [setD 0x05, setDf false] [(0x0200, 0x08)] [setD 0x02, setDf true, setR 3 0x0101] [],
    vector [0x75] [setD 0x05, setDf true] [(0x0200, 0x05)] [setD 0x00, setDf true, setR 3 0x0101] [],
    vector [0x7D, 0x08] [setD 0x05, setDf true] [] [setD 0x03, setDf true, setR 3 0x0102] [],
    vector [0x7D, 0x08] [setD 0x05, setDf false] [] [setD 0x02, setDf true, setR 3 0x0102] []].all id = true := by decide +kernel

/-- Rows 43-56, 43-57, 43-58, 43-59, 43-60, 43-61, 43-64, 43-65. -/
theorem test_subtract_memory : [
    vector [0xF7] [setD 0x05] [(0x0200, 0x08)] [setD 0xFD, setDf false, setR 3 0x0101] [],
    vector [0xF7] [setD 0x05, setDf false] [(0x0200, 0x00)] [setD 0x05, setDf true, setR 3 0x0101] [],
    vector [0xFF, 0x05] [setD 0x08] [] [setD 0x03, setDf true, setR 3 0x0102] [],
    vector [0xFF, 0x42] [setD 0x42] [] [setD 0x00, setDf true, setR 3 0x0102] [],
    vector [0x77] [setD 0x08, setDf false] [(0x0200, 0x05)] [setD 0x02, setDf true, setR 3 0x0101] [],
    vector [0x77] [setD 0x00, setDf true] [(0x0200, 0x01)] [setD 0xFF, setDf false, setR 3 0x0101] [],
    vector [0x7F, 0x00] [setD 0x00, setDf false] [] [setD 0xFF, setDf false, setR 3 0x0102] [],
    vector [0x7F, 0x01] [setD 0x10, setDf true] [] [setD 0x0F, setDf true, setR 3 0x0102] []].all id = true := by decide +kernel

/-- Rows 43-68, 43-69, 43-70, 43-71, 43-72, 43-73, 43-74, 43-75. -/
theorem test_shifts : [
    vector [0xF6] [setD 0x81] [] [setD 0x40, setDf true, setR 3 0x0101] [],
    vector [0xF6] [setD 0x01, setDf false] [] [setD 0x00, setDf true, setR 3 0x0101] [],
    vector [0x76] [setD 0x02, setDf true] [] [setD 0x81, setDf false, setR 3 0x0101] [],
    vector [0x76] [setD 0x01, setDf false] [] [setD 0x00, setDf true, setR 3 0x0101] [],
    vector [0xFE] [setD 0x81] [] [setD 0x02, setDf true, setR 3 0x0101] [],
    vector [0xFE] [setD 0x80, setDf false] [] [setD 0x00, setDf true, setR 3 0x0101] [],
    vector [0x7E] [setD 0x81, setDf true] [] [setD 0x03, setDf true, setR 3 0x0101] [],
    vector [0x7E] [setD 0x00, setDf true] [] [setD 0x01, setDf false, setR 3 0x0101] []].all id = true := by decide +kernel

/-- Rows 44-76, 44-77, 44-78, 44-79, 44-80, 44-81, 44-82, 44-83, 44-84, 44-85, 44-86, 44-87, 44-88, 44-98. -/
theorem test_short_branches_taken_or_not : [
    vector [0x30, 0x40] [] [] [setR 3 0x0140] [],
    vector [0x31, 0x40] [setQ false] [] [setR 3 0x0102] [],
    vector [0x31, 0x40] [setQ true] [] [setR 3 0x0140] [],
    vector [0x32, 0x40] [setD 0x00] [] [setR 3 0x0140] [],
    vector [0x32, 0x40] [setD 0x01] [] [setR 3 0x0102] [],
    vector [0x33, 0x40] [setDf true] [] [setR 3 0x0140] [],
    vector [0x33, 0x40] [setDf false] [] [setR 3 0x0102] [],
    vector [0x34, 0x40] [setEfs #v[true, false, false, false]] [] [setR 3 0x0140] [],
    vector [0x34, 0x40] [setEfs #v[false, false, false, false]] [] [setR 3 0x0102] [],
    vector [0x35, 0x40] [setEfs #v[false, true, false, false]] [] [setR 3 0x0140] [],
    vector [0x36, 0x40] [setEfs #v[false, false, true, false]] [] [setR 3 0x0140] [],
    vector [0x37, 0x40] [setEfs #v[false, false, false, true]] [] [setR 3 0x0140] [],
    vector [0x37, 0x40] [setEfs #v[true, true, true, false]] [] [setR 3 0x0102] [],
    vector [0x30, 0x10] [setR 3 0x02FE] [] [setR 3 0x0210] []].all id = true := by decide +kernel

/-- Rows 44-89, 44-90, 44-91, 44-92, 44-93, 44-94, 44-95, 44-96, 44-97. -/
theorem test_short_branches_inverted : [
    vector [0x38, 0x40] [] [] [setR 3 0x0102] [],
    vector [0x39, 0x40] [setQ false] [] [setR 3 0x0140] [],
    vector [0x3A, 0x40] [setD 0x02] [] [setR 3 0x0140] [],
    vector [0x3A, 0x40] [setD 0x00] [] [setR 3 0x0102] [],
    vector [0x3B, 0x40] [setDf false] [] [setR 3 0x0140] [],
    vector [0x3C, 0x40] [setEfs #v[false, false, false, false]] [] [setR 3 0x0140] [],
    vector [0x3D, 0x40] [setEfs #v[false, true, false, false]] [] [setR 3 0x0102] [],
    vector [0x3E, 0x40] [setEfs #v[false, false, false, false]] [] [setR 3 0x0140] [],
    vector [0x3F, 0x10] [setR 3 0x01FF, setEfs #v[false, false, false, false]] [] [setR 3 0x0210] []].all id = true := by decide +kernel

/-- Rows 44-99, 44-100, 44-101, 44-102, 44-103, 44-111, 44-112, 44-113, 44-114, 44-121. -/
theorem test_long_branches : [
    vector [0xC0, 0x12, 0x34] [] [] [setR 3 0x1234] [],
    vector [0xC1, 0x12, 0x34] [setQ true] [] [setR 3 0x1234] [],
    vector [0xC1, 0x12, 0x34] [setQ false] [] [setR 3 0x0103] [],
    vector [0xC2, 0x12, 0x34] [setD 0x00] [] [setR 3 0x1234] [],
    vector [0xC3, 0x12, 0x34] [setDf false] [] [setR 3 0x0103] [],
    vector [0xC9, 0x80, 0x00] [setQ false] [] [setR 3 0x8000] [],
    vector [0xCA, 0x12, 0x34] [setD 0x00] [] [setR 3 0x0103] [],
    vector [0xCA, 0x12, 0x34] [setD 0x01] [] [setR 3 0x1234] [],
    vector [0xCB, 0x01, 0x00] [setDf false] [] [setR 3 0x0100] [],
    vector [0xC0, 0x00, 0x00] [setR 3 0xFFFE] [] [setR 3 0x0000] []].all id = true := by decide +kernel

/-- Rows 44-104, 44-105, 44-106, 44-107, 44-108, 44-109, 44-110, 44-115, 44-116, 44-117, 44-118, 44-119, 44-120. -/
theorem test_long_skips : [
    vector [0xC4] [] [] [setR 3 0x0101] [],
    vector [0xC5] [setQ false] [] [setR 3 0x0103] [],
    vector [0xC5] [setQ true] [] [setR 3 0x0101] [],
    vector [0xC6] [setD 0x00] [] [setR 3 0x0101] [],
    vector [0xC6] [setD 0x07] [] [setR 3 0x0103] [],
    vector [0xC7] [setDf false] [] [setR 3 0x0103] [],
    vector [0xC8] [] [] [setR 3 0x0103] [],
    vector [0xCC] [setIe true] [] [setR 3 0x0103] [],
    vector [0xCC] [setIe false] [] [setR 3 0x0101] [],
    vector [0xCD] [setQ true] [] [setR 3 0x0103] [],
    vector [0xCE] [setD 0x01] [] [setR 3 0x0101] [],
    vector [0xCE] [setD 0x00] [] [setR 3 0x0103] [],
    vector [0xCF] [setDf true] [] [setR 3 0x0103] []].all id = true := by decide +kernel

/-- Rows 45-122, 45-123, 45-125, 45-126, 45-127, 45-128, 45-129, 45-130, 45-131, 45-132. -/
theorem test_io_and_control : [
    vector [0x62] [] [(0x0200, 0x0B)] [setR 2 0x0201, setR 3 0x0101] [],
    vector [0x68] [setD 0x11] [] [setD 0x00, setR 3 0x0101] [],
    vector [0x70] [setIe false] [(0x0200, 0x35)] [setP 5, setX 3, setIe true, setR 2 0x0201, setR 3 0x0101] [],
    vector [0x71] [setIe true] [(0x0200, 0x00)] [setP 0, setX 0, setIe false, setR 2 0x0201, setR 3 0x0101] [],
    vector [0x71, 0x23] [setX 3, setIe true] [] [setX 2, setIe false, setR 3 0x0102] [],
    vector [0x78] [setT 0x30] [] [setR 3 0x0101] [(0x0200, 0x30)],
    vector [0x79] [setX 5] [] [setX 3, setT 0x53, setR 2 0x01FF, setR 3 0x0101] [(0x0200, 0x53)],
    vector [0x7A] [setQ true] [] [setQ false, setR 3 0x0101] [],
    vector [0x7B] [setQ false] [] [setQ true, setR 3 0x0101] [],
    vector [0x00] [] [] [setR 3 0x0101] []].all id = true := by decide +kernel


/-! ## One step: ports, time, devices -/

/-- 43 R193 and rows 43-36, 43-37, 43-50, 43-51: D is the same under both values of the parameter. -/
theorem test_df_corner :
    addOp .trueCarry 0x12 0xFF true = (0x12, true) ∧ addOp .wrapped 0x12 0xFF true = (0x12, false) ∧
    subOp .trueCarry 0x34 0xFF true = (0x34, false) ∧ subOp .wrapped 0x34 0xFF true = (0x34, true) := by
  decide

/-- Row 43-38: outside the corner DF is the carry. -/
theorem test_adc_outside_corner (c : DfCorner) : addOp c 0x12 0xFF false = (0x11, true) := by
  cases c <;> decide

/-- A machine whose every port is a device of the host's, which supplies 0xC3. -/
def hosted (c : Cpu) (m : Memory) : State :=
  let s := bare c m
  { s with
    plat := { s.plat with wiring := { wires with
      out := .replicate 8 .external, inp := .replicate 8 .external
      attached := ⟨true, true, true, true, true, true, true⟩ } }
    env := { s.env with tape := [0xC3] } }

/-- A property of a step's next state. -/
def ran (o : Result) (p : State → Bool) : Bool :=
  match o with
  | .next t => p t
  | _ => false

/-- Row 45-124: INP 3 takes 0xC3 from the port to memory and D. -/
theorem test_inp3 : ran (step (hosted (setD 0x11 baseCpu) (placed [] 0x0100 [0x6B]))) (fun t =>
    decide (t.cpu.d = 0xC3) && decide (t.plat.mem.read 0x0200 = 0xC3) && decide (t.reg 2 = 0x0200) &&
    t.env.out.contains (.portIn 3)) = true := by
  decide +kernel

/-- 45 R281, the example: OUT 4 sends the byte at R[X] and passes it. -/
theorem test_out4 : ran (step (hosted baseCpu (stored [] [(0x0100, 0x64), (0x0200, 0x1B)]))) (fun t =>
    t.env.out.contains (.portOut 4 0x1B) && decide (t.reg 2 = 0x0201)) = true := by
  decide +kernel

/-- 95 L1-2, 60 R305: the interrupt cycle. -/
theorem test_interrupt_cycle :
    ran (step { bare (setX 5 baseCpu) [] with stepper := { Stepper.reset with cycle := .interrupt } }) (fun t =>
      decide (t.cpu = { baseCpu with t := 0x53, x := 2, p := 1, ie := false }) &&
      decide (t.stepper.cycle = .fetch)) = true := by
  decide +kernel

/-- 95 INT-1: an idle CPU with a request latched while IE was 0 goes to Fetch and saves nothing. -/
theorem test_idle_wakes_without_entry :
    ran (step { bare (setIe false baseCpu) [] with
      stepper := { Stepper.reset with cycle := .execute, idle := true, intPending := true } }) (fun t =>
      decide (t.stepper = Stepper.reset) && decide (t.cpu = setIe false baseCpu)) = true := by
  decide +kernel

/-- 95 DMA-4, the first cycle: the inbound byte goes to R[0], which is incremented. -/
theorem test_dma_in_byte :
    ran (step (let s := hosted (setR 0 0x0200 baseCpu) []
      { s with stepper := { Stepper.reset with cycle := .dma, queue := [⟨.input, 0, .host⟩, ⟨.input, 0, .host⟩] } }))
      (fun t => decide (t.plat.mem.read 0x0200 = 0xC3) && decide (t.reg 0 = 0x0201) &&
        decide (t.stepper.queue.length = 1) && decide (t.stepper.cycle = .dma)) = true := by
  decide +kernel

/-- 95 RST-1: the host sets Reset and then Run; the same turn's machine cycle fetches at 0x0000. -/
theorem test_reset_and_run :
    ran (State.boundary { bare baseCpu [] with env := { Env.reset with
      script := [[.setControlMode .reset 0, .setControlMode .run 0]] } }) (fun t =>
      decide (t.cpu = { Cpu.reset with r := Cpu.reset.r.set 0 1 }) && t.stepper.idle && t.plat.latch) = true := by
  decide +kernel

/-- 95 VID-3: a disable zeroes the cursor and calls clear-frame and present, the newest call first. -/
theorem test_display_off :
    let s := { State.reset with video := ⟨true, 5, 70, 37⟩ : State }.setDisplay false
    s.video = ⟨false, 5, 70, 0⟩ ∧ s.env.out = [.present, .clearFrame] := by
  decide +kernel

/-- 95 SND-2: rate writes of 0x35, 0x00 and 0xFF, with the VP595 installed. -/
theorem test_divide_rate :
    [0x35, 0x00, 0xFF].map (fun b => (((State.reset.swapBoard .vp595).portOut 3 b).plat.divideRate)) = [54, 1, 256] := by
  decide +kernel

/-- 45 R295: a SEQ is seen outside the core at the next boundary, and not before it. -/
theorem test_seq_is_seen_at_the_boundary :
    let s := (hosted baseCpu []).qOut
    s.reportedQ = some s.cpu.q ∧ s.cpu.q = false ∧
    ran (exec .seq s) (fun t => t.cpu.q && decide (t.reportedQ = some false ∧ t.qOut.reportedQ = some true)) = true := by
  decide +kernel

/-- 95 CM-5: the clock is clamped. -/
theorem test_clock_clamped : (State.construct .allZero ⟨10000000, by decide⟩).clock.hz.val = 6400000 := by
  decide +kernel

/-- 92 D12: the EF bits are false at construction under the other reset scope too. -/
theorem test_ef_at_construction :
    (State.construct .listedOnly ⟨1760900, by decide⟩).cpu.ef = .replicate 4 false := rfl

/-- 95 L1-5 and 20 R85: a write to ROM is refused; reading 0x8000 releases the latch, and then address 0 is RAM. -/
theorem test_latch_release :
    State.reset.writeCell 0x0000 = none ∧ State.reset.readCell 0x0000 = some (cellKey 1 0) ∧
    (State.reset.afterRead 0x8000).writeCell 0x0000 = some (cellKey 0 0) ∧ State.reset.writeCell 0x8000 = none ∧
    State.reset.readCell 0x4000 = none ∧ (State.reset.afterRead 0x7FFF).plat.latch = true := by
  decide +kernel

/-! ## Witnesses: every statement with hypotheses has a state that meets them -/

/-- A step's next state exists. -/
def answers (o : Result) : Bool := ran o fun _ => true

theorem witness_decode_after_encode : (Instr.inc 0).wellFormed = true ∧ (Instr.inc 15).wellFormed = true := by decide

/-- `LDI 0x5A` at the program counter. -/
def ldiState : State := bare baseCpu (placed [] 0x0100 [0xF8, 0x5A])

theorem witness_step_runs_decoded_instruction :
    let f := ldiState.driveKeypad.qOut.syncTick.fetchCycle Config.idlAdvances
    let e := f.driveKeypad.qOut.syncTick
    ldiState.env.script = [] ∧ ldiState.clock.mode = .run ∧ ldiState.stepper.cycle = .fetch ∧
    ldiState.memRead ldiState.pc ≠ 0 ∧
    decode [ldiState.memRead ldiState.pc, e.memRead e.pc, (e.afterRead e.pc).memRead (e.pc + 1)] =
      .ok (.ldi 0x5A, [0]) ∧ (Instr.ldi 0x5A).wellFormed = true :=
  ⟨rfl, rfl, rfl, by decide +kernel, rfl, rfl⟩

theorem witness_idl_idles :
    let s := bare baseCpu []
    s.env.script = [] ∧ s.clock.mode = .run ∧ s.stepper.cycle = .fetch ∧ s.memRead s.pc = 0 := by
  decide +kernel

/-- At both ends of the range of opcodes that take two execute cycles, and just outside it. -/
theorem witness_instruction_takes_two_or_three_cycles :
    [0xBF, 0xC0, 0xCF, 0xD0, 0x01, 0xFF].all (fun op =>
      let s := bare baseCpu (placed [] 0x0100 [op])
      decide (s.stepper.cycle = .fetch) && decide (s.memRead s.pc = op)) = true := by
  decide +kernel

/-- The first and the second of two execute cycles. -/
theorem witness_execute_cycles :
    [(true, 1), (true, 2), (false, 1)].all (fun v =>
      let s : State := { bare baseCpu [] with stepper := { Stepper.reset with cycle := .execute, first := v.1, execLeft := v.2 } }
      decide (s.stepper.cycle = .execute) && !s.stepper.idle && decide (s.stepper.execLeft = v.2)) = true := by
  decide +kernel

theorem witness_exec_answers :
    answers (exec .ret ldiState) = true ∧ answers (exec .dis ldiState) = true ∧ answers (exec .out1 ldiState) = true := by
  decide +kernel

/-- For each register of the claim, an instruction that changes it. -/
theorem witness_control_register_writers :
    let s := bare (setD 0x81 baseCpu) (stored [] [(0x0200, 0x35)])
    ran (exec .dis s) (fun t => decide (t.cpu.ie ≠ s.cpu.ie) && decide (t.cpu.p ≠ s.cpu.p) && decide (t.cpu.x ≠ s.cpu.x)) &&
    ran (exec .seq s) (fun t => decide (t.cpu.q ≠ s.cpu.q)) && ran (exec .mark s) (fun t => decide (t.cpu.t ≠ s.cpu.t)) &&
    ran (exec .shl s) (fun t => decide (t.cpu.df ≠ s.cpu.df)) = true := by
  decide +kernel

theorem witness_fetch_cycle : ldiState.stepper.cycle = .fetch := by decide +kernel

theorem witness_q_is_reported :
    (hosted baseCpu []).plat.wiring.attached.qOut = true ∧ answers (hosted baseCpu []).machineCycle = true := by
  decide +kernel

/-- With a VP590 installed, and without the callback. -/
theorem witness_opcode68_without_device :
    (State.reset.swapBoard .vp590).plat.wiring.inp[0] = .nothing ∧
    (bare baseCpu []).plat.wiring.attached.portIn = false := ⟨rfl, rfl⟩

/-- A machine with devices of the host's on every port whose callbacks issue an interrupt request. -/
def reacting : State := { hosted baseCpu [] with env := { Env.reset with reactions := [[.interrupt]] } }

/-- Each output device, with the board the claim needs, a keypad line and none, a callback that issues a request and one
that does not; and a machine without the callback. -/
theorem witness_output_devices :
    (∀ v, State.reset.plat.board ≠ .vp590 v) ∧ (bare baseCpu []).plat.wiring.attached.portOut = false ∧
    State.reset.plat.wiring.attached.portOut = true ∧ State.reset.plat.wiring.out[1] = .displayOff ∧
    State.reset.plat.wiring.out[2] = .keyLatch ∧ State.reset.plat.wiring.keypadEf = some 2 ∧
    reacting.plat.wiring.keypadEf = none ∧ State.reset.plat.wiring.out[3] = .divider ∧
    State.reset.plat.wiring.out[7] = .ignored ∧ (State.reset.swapBoard .vp595).plat.board = .vp595 ∧
    (∀ v, (State.reset.swapBoard .vp595).plat.board ≠ .vp590 v) ∧ reacting.plat.wiring.out[0] = .external ∧
    reacting.plat.wiring.attached.portOut = true ∧ (∀ v, reacting.plat.board ≠ .vp590 v) ∧
    reacting.env.reactions = [[.interrupt]] ∧ (hosted baseCpu []).env.reactions = [] :=
  ⟨fun _ => nofun, rfl, rfl, rfl, rfl, rfl, rfl, rfl, rfl, rfl, fun _ => nofun, rfl, rfl, fun _ => nofun, rfl, rfl⟩

/-- Each input device, a tape with a byte and an empty one, a callback that issues a request and one that does not; and a
machine without the callback. -/
theorem witness_input_devices :
    State.reset.plat.wiring = Wiring.vip ∧ (∀ v, State.reset.plat.board ≠ .vp590 v) ∧
    State.reset.plat.wiring.attached.portIn = true ∧ State.reset.plat.wiring.inp[0] = .nothing ∧
    State.reset.plat.wiring.inp[1] = .displayOn ∧ reacting.plat.wiring.inp[7] = .external ∧
    reacting.plat.wiring.attached.portIn = true ∧ (∀ v, reacting.plat.board ≠ .vp590 v) ∧ reacting.env.tape = [] ∧
    reacting.env.reactions = [[.interrupt]] ∧ (hosted baseCpu []).env.tape = [0xC3] ∧
    (hosted baseCpu []).env.reactions = [] ∧ (bare baseCpu []).plat.wiring.attached.portIn = false ∧
    (∀ v, (bare baseCpu []).plat.board ≠ .vp590 v) :=
  ⟨rfl, fun _ => nofun, rfl, rfl, rfl, rfl, rfl, fun _ => nofun, rfl, rfl, rfl, rfl, rfl, fun _ => nofun⟩

/-- At both ends of the VP590's range, which no region of the reset map covers, and just outside it. -/
theorem witness_expansion_boards :
    let s := State.reset.swapBoard .vp590
    s.plat.board = .vp590 .initial ∧ s.select 0xC000 = some vp590Region ∧ s.select 0xDFFF = some vp590Region ∧
    vp590Region.hook = some .vp590 ∧
    (∀ a : Word, a = 0xC000 ∨ a = 0xDFFF → ∀ r ∈ State.reset.plat.regions, ¬ (r.start ≤ a ∧ a ≤ r.stop)) ∧
    ¬ ((0xC000 : Word) ≤ 0xBFFF) ∧ ¬ ((0xE000 : Word) ≤ 0xDFFF) ∧ s.plat.wiring.attached.portIn = true :=
  ⟨rfl, by decide +kernel, by decide +kernel, rfl, by rintro a (rfl | rfl) <;> decide +kernel, by decide, by decide, rfl⟩

/-- A machine with the given requests pending. -/
def requested (i o : Option DmaRequest) (p ie : Bool) : State :=
  { bare baseCpu [] with stepper :=
    { Stepper.reset with cycle := .execute, idle := true, slotIn := i, slotOut := o, intPending := p, intIe := ie } }

theorem witness_interrupt_request :
    (requested none none true true).stepper.intPending = true ∧ (requested none none false true).stepper.intPending = false := by
  decide +kernel

/-- With IE latched set and latched clear. -/
theorem witness_interrupt_decision :
    [true, false].all (fun ie => let s := requested none none true ie
      decide (s.stepper.slotIn = none) && decide (s.stepper.slotOut = none) && s.stepper.intPending) = true := by
  decide +kernel

theorem witness_interrupt_cycle :
    { bare baseCpu [] with stepper := { Stepper.reset with cycle := .interrupt } : State }.stepper.cycle = .interrupt := rfl

/-- One state for each branch of the arbitration. -/
theorem witness_arbitration_order :
    let r : DmaRequest := ⟨1, 0, .host⟩
    (requested (some r) (some r) true true).stepper.slotIn = some r ∧
    ((requested none (some r) true true).stepper.slotIn = none ∧
      (requested none (some r) true true).stepper.slotOut = some r) ∧
    ((requested none none true true).stepper.slotOut = none ∧ (requested none none true true).stepper.intPending = true) ∧
    ((requested none none false true).stepper.slotIn = none ∧ (requested none none false true).stepper.slotOut = none ∧
      (requested none none false true).stepper.intPending = false) := by
  decide +kernel

theorem witness_idle_cycle :
    (requested (some ⟨1, 0, .host⟩) none false false).stepper.slotIn ≠ none ∧
    (requested none (some ⟨1, 0, .host⟩) false false).stepper.slotOut ≠ none ∧
    (requested none none true false).stepper.intPending = true ∧
    (requested none none false false).stepper.slotIn = none ∧ (requested none none false false).stepper.slotOut = none ∧
    (requested none none false false).stepper.intPending = false ∧
    (requested none none true false).stepper.cycle = .execute ∧ (requested none none true false).stepper.idle = true := by
  decide +kernel

theorem witness_dma_request :
    (⟨0, 0, .null⟩ : DmaRequest).count = 0 ∧ (⟨1, 0, .null⟩ : DmaRequest).count ≠ 0 ∧
    (requested (some ⟨1, 0, .host⟩) (some ⟨1, 0, .host⟩) false false).stepper.slotIn ≠ none ∧
    (requested (some ⟨1, 0, .host⟩) (some ⟨1, 0, .host⟩) false false).stepper.slotOut ≠ none ∧
    (requested none none false false).stepper.slotIn = none ∧ (requested none none false false).stepper.slotOut = none := by
  decide +kernel

/-- A machine in a DMA burst. -/
def bursting (q : List Descriptor) : State :=
  let s := hosted (setR 0 0xFFFF baseCpu) []
  { s with stepper := { Stepper.reset with cycle := .dma, queue := q } }

/-- The last byte and an earlier byte of a burst, in each direction and for each callback, at the top of memory. -/
theorem witness_dma_cycle :
    (bursting [⟨.output, 0, .video⟩, ⟨.output, 0, .video⟩]).stepper.queue = ⟨.output, 0, .video⟩ :: [⟨.output, 0, .video⟩] ∧
    (bursting [⟨.output, 0, .null⟩]).stepper.queue = ⟨.output, 0, .null⟩ :: [] ∧ (bursting []).stepper.cycle = .dma ∧
    (bursting [⟨.output, 0, .host⟩]).stepper.queue = ⟨.output, 0, .host⟩ :: [] ∧
    (bursting [⟨.input, 0, .host⟩, ⟨.input, 0, .null⟩]).stepper.queue = ⟨.input, 0, .host⟩ :: [⟨.input, 0, .null⟩] ∧
    (bursting [⟨.input, 0, .null⟩]).stepper.queue = ⟨.input, 0, .null⟩ :: [] ∧
    (bursting []).plat.mem.wf ∧ (bursting []).env.tape = 0xC3 :: [] ∧
    (bursting []).writeCell ((bursting []).reg 0) = some 0xFFFF ∧ (bursting []).writeCell ((bursting []).reg 0) ≠ some 0 :=
  ⟨rfl, rfl, rfl, rfl, rfl, rfl, by decide +kernel, rfl, by decide +kernel, by decide +kernel⟩

/-- The shortest burst, and a video line's. -/
theorem witness_burst :
    (bursting (List.replicate 1 ⟨.input, 0, .host⟩)).stepper.cycle = .dma ∧
    (bursting (List.replicate 1 ⟨.input, 0, .host⟩)).stepper.queue.length = 0 + 1 ∧
    (bursting (List.replicate 8 ⟨.output, 0, .host⟩)).stepper.queue.length = 7 + 1 ∧
    (bursting (List.replicate 8 ⟨.output, 0, .host⟩)).stepper.queue = List.replicate (7 + 1) ⟨.output, 0, .host⟩ := by
  decide +kernel

/-- The display off, and on at the boundaries of each window and of the counters. -/
theorem witness_sync :
    [(false, 0, 62), (true, 0, 59), (true, 0, 60), (true, 0, 62), (true, 0, 63), (true, 0, 64), (true, 0, 187), (true, 0, 188),
      (true, 0, 191), (true, 0, 192), (true, 2, 63), (true, 2, 64), (true, 2, 191), (true, 2, 192), (true, 13, 0),
      (true, 13, 261)].all (fun v =>
        let s : State := { State.reset with video := ⟨v.1, v.2.1, v.2.2, 0⟩ }
        decide (s.video.display = v.1) && decide (s.video.cycle = v.2.1) && decide (s.video.line = v.2.2)) = true := by
  decide +kernel

theorem witness_frame :
    (⟨true, 13, 261, 1023⟩ : Video).cycle < 14 ∧ (⟨true, 13, 261, 1023⟩ : Video).line < 262 ∧
    (⟨false, 0, 0, 0⟩ : Video).cycle < 14 ∧ (⟨false, 0, 0, 0⟩ : Video).line < 262 := by
  decide

theorem witness_control_modes :
    State.reset.clock.mode = .reset ∧ (bare baseCpu []).clock.mode ≠ .reset ∧ (bare baseCpu []).clock.mode = .run ∧
    State.reset.env.script = [] ∧ State.reset.hostTurn.clock.mode ≠ .run ∧
    State.reset.plat.wiring.keypadEf = some 2 ∧ (2 : Fin 4) ≠ 3 ∧ (bare baseCpu []).plat.wiring.keypadEf = none := by
  decide +kernel

theorem witness_eight_pulses : (bare baseCpu []).clock.pulsePhase = 0 := rfl

theorem witness_step_call :
    (bare baseCpu []).clock.mode = .run ∧ 0 ≤ (bare baseCpu []).clock.acc ∧ (bare baseCpu []).clock.pulsePhase < 8 ∧
    State.reset.clock.mode = .reset ∧ (State.reset.setControlMode .pause 0).clock.mode = .pause ∧
    (State.reset.setControlMode .load 0).clock.mode = .load := by
  decide +kernel

/-- The requested frequency of the claim on construction, and one above the maximum. -/
theorem witness_reset_state_values :
    (⟨1760900, by decide⟩ : Frequency).val = 1760900 ∧ 6400000 < (⟨6400001, by decide⟩ : Frequency).val := by
  decide +kernel

/-- Both ends of the reset map's regions, an address between them, and a read-only and a read-write selection. -/
theorem witness_memory_dispatch :
    let s := State.reset
    let t := State.reset.afterRead 0x8000
    (s.select 0x81FF).isSome = true ∧ s.select 0x8200 = none ∧ s.select 0x1000 = none ∧
    (s.select 0x8000 = some ⟨0x8000, 0x81FF, 1, 0x200, true, false, none⟩) ∧
    (t.select 0x0FFF = some ⟨0x0000, 0x0FFF, 0, 0x1000, true, true, none⟩) ∧
    (t.memWrite 0x0FFF 0x5A).plat.latch = t.plat.latch ∧ t.plat.mem.wf ∧
    t.writeCell 0x0FFF = some 0xFFF ∧ t.writeCell 0x0FFE ≠ some 0xFFF ∧ t.readCell 0x4000 = none ∧
    s.plat.regions = ⟨0x0000, 0x0FFF, 0, 0x1000, true, true, none⟩ ::
      [⟨0x8000, 0x81FF, 1, 0x200, true, false, none⟩] ∧
    s.plat.rom = some ⟨1, 0x200⟩ ∧ s.plat.latch = true ∧ t.plat.latch = false := by
  decide +kernel

/-- A write-only region of four bytes, whose range is longer. -/
def writeOnly : State :=
  { State.reset with plat := { State.reset.plat with regions := [⟨0x4000, 0x40FF, 3, 4, false, true, none⟩], rom := none } }

/-- The last offset below the size, and the first at it. -/
theorem witness_write_only_region :
    writeOnly.select 0x4003 = some ⟨0x4000, 0x40FF, 3, 4, false, true, none⟩ ∧
    writeOnly.select 0x4004 = some ⟨0x4000, 0x40FF, 3, 4, false, true, none⟩ ∧ writeOnly.plat.mem.wf ∧
    writeOnly.writeCell 0x4003 = some (cellKey 3 3) ∧ writeOnly.writeCell 0x4004 = none := by
  decide +kernel

/-- The invariant holds of a running machine, and its step answers. -/
theorem witness_step_keeps_invariant : ldiState.inv ∧ answers (step ldiState) = true := by
  refine ⟨?_, by decide +kernel⟩
  unfold State.inv Stepper.inv Video.inv Clock.inv Platform.inv
  decide +kernel

theorem witness_b_is_unobservable : ldiState.env.script = [] ∧ answers (step ldiState) = true ∧ ldiState.withB 1 ≠ ldiState := by
  decide +kernel

theorem witness_wiring_is_fixed : answers (step State.reset) = true := by decide +kernel

end Sys2Proof.Tests
end

section
/-! PROOFS. The platform wiring is fixed (O60): what each operation of a step leaves of it, from the operations up to the
step. The first part carries any predicate from a turn of the host with its machine cycle to a step. -/

namespace Sys2Proof.Machine

/-! ## From a boundary to a step -/

/-- A sequence answers a next state exactly when both its parts do. -/
theorem andThen_eq_next_iff {o : Result} {f : State → Result} {t : State} :
    andThen o f = .next t ↔ ∃ u, o = .next u ∧ f u = .next t := by
  cases o <;> simp [andThen]

section
variable {P : State → Prop} (hP : ∀ u v : State, P u → u.boundary = .next v → P v)
include hP

/-- What every boundary keeps, the rest of an instruction keeps, however many boundaries it takes (log 1). -/
theorem finishInstruction_keeps {fuel : Nat} {s t : State} (hs : P s) (h : s.finishInstruction fuel = .next t) : P t := by
  induction fuel generalizing s with
  | zero => cases h; exact hs
  | succ fuel ih =>
    unfold State.finishInstruction at h
    split at h
    · obtain ⟨u, hu, h⟩ := andThen_eq_next_iff.1 h
      exact ih (hP s u hs hu) h
    · cases h; exact hs

/-- What every boundary keeps, every step keeps. -/
theorem step_keeps {s t : State} (hs : P s) (h : step s = .next t) : P t := by
  obtain ⟨u, hu, h⟩ := andThen_eq_next_iff.1 h
  exact finishInstruction_keeps hP (hP s u hs hu) h
end

/-! ## Memory and ports -/

@[simp] theorem memWrite_plat_wiring (s : State) (a : Word) (v : Byte) :
    (s.memWrite a v).plat.wiring = s.plat.wiring := by
  rw [memWrite_eq]

theorem PortOnly.wiring {s t : State} (h : PortOnly s t) : t.plat.wiring = s.plat.wiring := by
  rw [h]

@[simp] theorem portOut_plat_wiring (s : State) (n : Port) (b : Byte) :
    (s.portOut n b).plat.wiring = s.plat.wiring :=
  (portOut_only s n b).wiring

@[simp] theorem inPort_plat_wiring (s : State) (n : Port) : (s.inPort n).plat.wiring = s.plat.wiring :=
  (memWrite_plat_wiring _ _ _).trans (portIn_only s n).wiring

/-! ## Instructions -/

@[simp] theorem longBranch_plat_wiring (s : State) (cond : Bool) (hl : Word) :
    (s.longBranch cond hl).plat.wiring = s.plat.wiring := by
  cases cond <;> rfl

@[simp] theorem longSkip_plat_wiring (s : State) (cond : Bool) : (s.longSkip cond).plat.wiring = s.plat.wiring := by
  cases cond <;> rfl

/-- Every instruction answers a state with the wiring it found. -/
theorem exec_next_wiring (i : Instr) (s : State) : ∃ t, exec i s = .next t ∧ t.plat.wiring = s.plat.wiring := by
  cases i
  case out1 | out2 | out3 | out4 | out5 | out6 | out7 => exact ⟨_, rfl, portOut_plat_wiring _ _ _⟩
  case inp0 | inp1 | inp2 | inp3 | inp4 | inp5 | inp6 | inp7 => exact ⟨_, rfl, inPort_plat_wiring s _⟩
  case lbr | lbq | lbz | lbdf | lbnq | lbnz | lbnf => exact ⟨_, rfl, longBranch_plat_wiring s _ _⟩
  case lsnq | lsnz | lsnf | lskp | lsie | lsq | lsz | lsdf => exact ⟨_, rfl, longSkip_plat_wiring s _⟩
  case str | stxd | sav => exact ⟨_, rfl, memWrite_plat_wiring s _ _⟩
  case mark => exact ⟨_, rfl, memWrite_plat_wiring (s.setT _) _ _⟩
  all_goals exact ⟨_, rfl, rfl⟩

/-! ## The machine cycle -/

@[simp] theorem arbitrate_plat (s : State) : s.arbitrate.plat = s.plat := by
  rw [(arbitrate_only s).1]

@[simp] theorem idleCycle_plat (s : State) : s.idleCycle.plat = s.plat := by
  unfold State.idleCycle
  split
  · exact arbitrate_plat _
  · rfl

@[simp] theorem finishExecute_plat (s : State) : s.finishExecute.plat = s.plat := by
  rcases finishExecute_cases s with ⟨-, h⟩ | ⟨-, h⟩ <;> rw [h]
  exact arbitrate_plat _

theorem executeCycle_wiring {s t : State} (h : s.executeCycle = .next t) : t.plat.wiring = s.plat.wiring := by
  unfold State.executeCycle at h
  split_ifs at h
  · cases h; rw [idleCycle_plat]
  · obtain ⟨u, hu, hw⟩ := exec_next_wiring s.operandInstr s
    rw [hu, andThen_next] at h
    cases h; rw [finishExecute_plat, hw]
  · cases h; rw [finishExecute_plat]

theorem TransferOnly.plat {s t : State} (h : TransferOnly s t) : t.plat = s.plat := by
  rw [h]

@[simp] theorem transfer_plat_wiring (s : State) (d : Descriptor) : (s.transfer d).plat.wiring = s.plat.wiring := by
  unfold State.transfer
  split
  · simp [(transferByte_only s d).plat]
  · simp [(deliver_only _ d _).plat]

@[simp] theorem dmaCycle_plat_wiring (s : State) : s.dmaCycle.plat.wiring = s.plat.wiring := by
  unfold State.dmaCycle
  split
  · rw [arbitrate_plat]
  · dsimp only
    split
    · rw [arbitrate_plat, transfer_plat_wiring]
    · rw [transfer_plat_wiring]

theorem cpuStep_wiring {s t : State} (h : s.cpuStep = .next t) : t.plat.wiring = s.plat.wiring := by
  unfold State.cpuStep at h
  split at h
  · cases h; rfl
  · exact executeCycle_wiring h
  · cases h; exact dmaCycle_plat_wiring s
  · cases h; rfl

theorem BeforeStep.plat {s t : State} (h : BeforeStep s t) : t.plat = s.plat := by
  rw [h]

theorem machineCycle_wiring {s t : State} (h : s.machineCycle = .next t) : t.plat.wiring = s.plat.wiring := by
  rw [cpuStep_wiring h, (machineCycle_beforeStep s).plat]

/-! ## The host's turn -/

@[simp] theorem request_plat (s : State) (r : Request) : (s.request r).plat = s.plat :=
  (request_only s r).beforeStep.plat

@[simp] theorem setControlMode_plat_wiring (s : State) (m : ControlMode) (now : Rat) :
    (s.setControlMode m now).plat.wiring = s.plat.wiring := by
  cases m with
  | run => simp only [State.setControlMode, State.modeAction]; split <;> rfl
  | reset | pause | load => rfl

/-- No action of the host changes the wiring: a ROM load and a board swap change the memory map alone (00 R8, 20 R72). -/
@[simp] theorem hostAct_plat_wiring (s : State) (e : HostEvent) : (s.hostAct e).plat.wiring = s.plat.wiring := by
  cases e with
  | setControlMode m now => exact setControlMode_plat_wiring s m now
  | request r => rw [State.hostAct, request_plat]
  | swapBoard k => rw [State.hostAct, swapBoard_eq]
  | setEf | setKeys | loadByte | loadRom | releaseLatch | setClock => rfl

theorem hostActs_plat_wiring (es : List HostEvent) (s : State) :
    (es.foldl State.hostAct s).plat.wiring = s.plat.wiring := by
  induction es generalizing s with
  | nil => rfl
  | cons e es ih => rw [List.foldl_cons, ih, hostAct_plat_wiring]

@[simp] theorem hostTurn_plat_wiring (s : State) : s.hostTurn.plat.wiring = s.plat.wiring := by
  unfold State.hostTurn
  split <;> rw [(driveKeypad_beforeStep _).plat]
  exact hostActs_plat_wiring _ _

/-! ## The step -/

theorem boundary_wiring {s t : State} (h : s.boundary = .next t) : t.plat.wiring = s.plat.wiring := by
  unfold State.boundary at h
  dsimp only at h
  split at h
  · rw [machineCycle_wiring h, hostTurn_plat_wiring]
  · cases h; exact hostTurn_plat_wiring s

/-- Settles O60: no boundary changes the wiring, so no step does. -/
theorem wiringIsFixed : Obligations.WiringIsFixed := by
  intro s t h
  exact step_keeps (P := fun u => u.plat.wiring = s.plat.wiring) (fun u v hu hv => (boundary_wiring hv).trans hu) rfl h

end Sys2Proof.Machine
end

section
/-! PROOFS. The invariant (O56, O57). It has three parts: the phase of the cycle stepper, which only the cycle machine
moves; the data that the operations of an instruction write; and the clock, which a machine cycle does not write. -/

namespace Sys2Proof.Machine

/-! ## The parts of the invariant -/

/-- The phase of the stepper: descriptors are queued exactly in the DMA state, idle is a state of Execute, and an
instruction in progress has one or two execute cycles left (10 R43, R44, R48). -/
def Stepper.phaseOk (t : Stepper) : Prop :=
  t.execLeft ≤ 2 ∧ (t.cycle = .dma ↔ t.queue ≠ []) ∧ (t.idle = true → t.cycle = .execute) ∧
  (t.cycle = .execute → t.idle = false → 1 ≤ t.execLeft)

/-- The data that the operations of an instruction write: the request slots, the video controller and the platform
(10 R47, R50, R51). -/
def State.dataOk (s : State) : Prop :=
  slotOk s.stepper.slotIn = true ∧ slotOk s.stepper.slotOut = true ∧ s.video.inv ∧ s.plat.inv

theorem inv_iff (s : State) : s.inv ↔ s.stepper.phaseOk ∧ s.dataOk ∧ s.clock.inv := by
  unfold State.inv Stepper.inv Stepper.phaseOk State.dataOk
  tauto

/-- What is not the phase of the stepper does not change it. -/
theorem SameCycle.phaseOk {s t : State} (h : SameCycle s t) (hs : s.stepper.phaseOk) : t.stepper.phaseOk := by
  obtain ⟨hc, hl, hi, -, hq⟩ := h
  unfold Stepper.phaseOk
  rw [hc, hl, hi, hq]
  exact hs

theorem PortOnly.sameCycle {s t : State} (h : PortOnly s t) : SameCycle s t := by
  rw [h]
  exact ⟨rfl, rfl, rfl, rfl, rfl⟩

theorem BeforeStep.sameCycle {s t : State} (h : BeforeStep s t) : SameCycle s t := by
  rw [h]
  exact ⟨rfl, rfl, rfl, rfl, rfl⟩

theorem TransferOnly.sameCycle {s t : State} (h : TransferOnly s t) : SameCycle s t := by
  rw [h]
  exact ⟨rfl, rfl, rfl, rfl, rfl⟩

/-! ## Requests and calls keep the data -/

theorem emit_dataOk {s : State} (h : s.dataOk) (b : Bool) (o : Output) : (s.emit b o).dataOk := by
  rw [emit_eq]
  exact h

theorem issueDma_dataOk {s : State} (h : s.dataOk) (d : Dir) (r : DmaRequest) : (s.issueDma d r).dataOk := by
  rcases issueDma_cases s d r with ⟨he, -⟩ | ⟨hr, -, he⟩ <;> rw [he]
  · exact h
  · obtain ⟨hi, ho, hv, hp⟩ := h
    have hnew : slotOk (some r) = true := by simpa [slotOk] using hr
    cases d with
    | input => exact ⟨hnew, ho, hv, hp⟩
    | output => exact ⟨hi, hnew, hv, hp⟩

theorem issueInterrupt_dataOk {s : State} (h : s.dataOk) : s.issueInterrupt.dataOk := by
  rcases issueInterrupt_cases s with ⟨-, he⟩ | ⟨-, he⟩ <;> rw [he] <;> exact h

theorem request_dataOk {s : State} (h : s.dataOk) (r : Request) : (s.request r).dataOk := by
  cases r with
  | dma d q => exact issueDma_dataOk h d q
  | interrupt => exact issueInterrupt_dataOk h

theorem requests_dataOk {s : State} (h : s.dataOk) (rs : List Request) : (rs.foldl State.request s).dataOk := by
  induction rs generalizing s with
  | nil => exact h
  | cons r rs ih => exact ih (request_dataOk h r)

theorem react_dataOk {s : State} (h : s.dataOk) : s.react.dataOk := by
  unfold State.react
  split
  · exact h
  · next rs rest _ =>
    have hs : State.dataOk { s with env := { s.env with reactions := rest } } := h
    exact requests_dataOk hs rs

theorem supply_dataOk {s : State} (h : s.dataOk) : s.supply.2.dataOk := by
  rw [supply_eq]
  exact h

theorem qOut_dataOk {s : State} (h : s.dataOk) : s.qOut.dataOk := by
  unfold State.qOut
  split
  · exact react_dataOk (emit_dataOk h _ _)
  · exact h

/-! ## The devices keep the data -/

/-- The counters wrap at the ends of their ranges (60 R322). -/
theorem Video.advance_inv {v : Video} (h : v.inv) : v.advance.inv := by
  obtain ⟨hc, hl, hu⟩ := h
  unfold Video.advance
  split
  · refine ⟨Nat.zero_lt_succ _, ?_, hu⟩
    dsimp only
    split
    · exact Nat.zero_lt_succ _
    · omega
  · exact ⟨by dsimp only; omega, hl, hu⟩

theorem ite_dataOk {b : Bool} {s t : State} (hs : s.dataOk) (ht : t.dataOk) : (if b = true then s else t).dataOk := by
  split
  · exact hs
  · exact ht

theorem sync_dataOk {s : State} (h : s.dataOk) : s.sync.dataOk := by
  unfold State.sync
  extract_lets v s1 s2 s3 s4
  have h1 : s1.dataOk := ite_dataOk h h
  have h2 : s2.dataOk := ite_dataOk (issueInterrupt_dataOk h1) h1
  have h3 : s3.dataOk := ite_dataOk (issueDma_dataOk h2 _ _) h2
  have h4 : s4.dataOk := ite_dataOk (emit_dataOk h3 _ _) h3
  obtain ⟨hi, ho, hv, hp⟩ := h4
  exact ⟨hi, ho, Video.advance_inv hv, hp⟩

theorem syncTick_dataOk {s : State} (h : s.dataOk) : s.syncTick.dataOk :=
  ite_dataOk (sync_dataOk h) h

/-- A disable zeroes the display cursor (60 R328). -/
theorem setDisplay_dataOk {s : State} (h : s.dataOk) (e : Bool) : (s.setDisplay e).dataOk := by
  obtain ⟨hi, ho, ⟨hc, hl, hu⟩, hp⟩ := h
  rw [setDisplay_eq]
  refine ⟨hi, ho, ⟨hc, hl, ?_⟩, hp⟩
  cases e
  · exact Nat.zero_lt_succ _
  · exact hu

/-- The display cursor wraps (60 R327). -/
theorem dmaOutByte_dataOk {s : State} (h : s.dataOk) (ctx : Nat) (b : Byte) : (s.dmaOutByte ctx b).dataOk := by
  obtain ⟨hi, ho, ⟨hc, hl, -⟩, hp⟩ := h
  rw [dmaOutByte_eq]
  exact ⟨hi, ho, ⟨hc, hl, Nat.mod_lt _ (Nat.zero_lt_succ _)⟩, hp⟩

theorem driveKeypad_dataOk {s : State} (h : s.dataOk) : s.driveKeypad.dataOk := by
  unfold State.driveKeypad
  split <;> exact h

/-- A rate byte gives a divide rate of 1 to 256 (60 R341). -/
theorem setRate_dataOk {s : State} (h : s.dataOk) (b : Byte) : (s.setRate b).dataOk := by
  unfold State.setRate
  split
  · obtain ⟨hi, ho, hv, hm, -⟩ := h
    exact ⟨hi, ho, hv, hm, Nat.succ_pos _, b.isLt⟩
  · exact h

theorem stepBackground_dataOk {s : State} (h : s.dataOk) (d : Dir) (n : Port) : (s.stepBackground d n).dataOk := by
  unfold State.stepBackground
  split
  · split <;> exact h
  · exact h

theorem swapBoard_dataOk {s : State} (h : s.dataOk) (k : BoardKind) : (s.swapBoard k).dataOk := by
  obtain ⟨hi, ho, hv, hm, hr⟩ := h
  rw [swapBoard_eq]
  refine ⟨hi, ho, hv, hm, ?_⟩
  dsimp only
  split
  · decide
  · exact hr

/-! ## Memory and ports keep the data -/

theorem memWrite_dataOk {s : State} (h : s.dataOk) (a : Word) (v : Byte) : (s.memWrite a v).dataOk := by
  obtain ⟨hi, ho, hv, hm, hr⟩ := h
  have hm' := memWrite_wf hm a v
  rw [memWrite_eq] at hm' ⊢
  exact ⟨hi, ho, hv, hm', hr⟩

theorem deviceOut_dataOk {s : State} (h : s.dataOk) (dev : OutDevice) (b : Byte) : (s.deviceOut dev b).dataOk := by
  cases dev with
  | ignored => exact h
  | displayOff => exact setDisplay_dataOk h false
  | keyLatch => exact driveKeypad_dataOk (s := { s with plat := { s.plat with keyLatch := lowNibble b } }) h
  | divider => exact setRate_dataOk h b
  | external => exact react_dataOk h

theorem deviceIn_dataOk {s : State} (h : s.dataOk) (dev : InDevice) : (s.deviceIn dev).2.dataOk := by
  cases dev with
  | nothing => exact h
  | displayOn => exact setDisplay_dataOk h true
  | external => exact supply_dataOk (react_dataOk h)

theorem portOut_dataOk {s : State} (h : s.dataOk) (n : Port) (b : Byte) : (s.portOut n b).dataOk :=
  ite_dataOk (stepBackground_dataOk (deviceOut_dataOk (emit_dataOk h true _) _ b) .output n) h

theorem portIn_dataOk {s : State} (h : s.dataOk) (n : Port) : (s.portIn n).2.dataOk := by
  unfold State.portIn
  split
  · exact stepBackground_dataOk (deviceIn_dataOk (emit_dataOk h true _) _) .input n
  · exact h

/-! ## Instructions keep the data and the phase -/

/-- `t` is `s` but for the CPU registers and the address-inhibit latch, which a read may release. -/
def ReadsOnly (s t : State) : Prop := t = { s with cpu := t.cpu, plat := { s.plat with latch := t.plat.latch } }

theorem longBranch_readsOnly (s : State) (cond : Bool) (hl : Word) : ReadsOnly s (s.longBranch cond hl) := by
  cases cond <;> rfl

theorem longSkip_readsOnly (s : State) (cond : Bool) : ReadsOnly s (s.longSkip cond) := by
  cases cond <;> rfl

/-- What an instruction can do to the machine: change the CPU registers and read memory; write one byte of memory; output
to a port, with R[X] passed; or input from a port (40 R128). -/
theorem exec_cases {i : Instr} {s t : State} (h : exec i s = .next t) :
    ReadsOnly s t ∨
    (∃ a v c c', t = { ({ s with cpu := c } : State).memWrite a v with cpu := c' }) ∨
    (∃ u n b, ReadsOnly s u ∧ t = u.portOut n b) ∨
    ∃ n, t = s.inPort n := by
  cases i
  case lbr | lbq | lbz | lbdf | lbnq | lbnz | lbnf => cases h; exact .inl (longBranch_readsOnly s _ _)
  case lsnq | lsnz | lsnf | lskp | lsie | lsq | lsz | lsdf => cases h; exact .inl (longSkip_readsOnly s _)
  case str | sav | stxd | mark => cases h; exact .inr (.inl ⟨_, _, _, _, rfl⟩)
  case out1 | out2 | out3 | out4 | out5 | out6 | out7 =>
    cases h
    exact .inr (.inr (.inl ⟨(s.afterRead (s.reg s.cpu.x)).setReg s.cpu.x (inc16 (s.reg s.cpu.x)), _, _, rfl, rfl⟩))
  case inp0 | inp1 | inp2 | inp3 | inp4 | inp5 | inp6 | inp7 => cases h; exact .inr (.inr (.inr ⟨_, rfl⟩))
  all_goals cases h; exact .inl rfl

theorem ReadsOnly.dataOk {s t : State} (h : ReadsOnly s t) (hs : s.dataOk) : t.dataOk := by
  rw [h]
  exact hs

theorem exec_dataOk {i : Instr} {s t : State} (h : exec i s = .next t) (hs : s.dataOk) : t.dataOk := by
  rcases exec_cases h with hr | ⟨a, v, c, c', rfl⟩ | ⟨u, n, b, hr, rfl⟩ | ⟨n, rfl⟩
  · exact hr.dataOk hs
  · exact memWrite_dataOk (s := { s with cpu := c }) hs a v
  · exact portOut_dataOk (hr.dataOk hs) n b
  · exact memWrite_dataOk (portIn_dataOk hs n) _ _

theorem exec_sameCycle {i : Instr} {s t : State} (h : exec i s = .next t) : SameCycle s t := by
  rcases exec_cases h with hr | ⟨a, v, c, c', rfl⟩ | ⟨u, n, b, hr, rfl⟩ | ⟨n, rfl⟩
  · rw [hr]
    exact ⟨rfl, rfl, rfl, rfl, rfl⟩
  · rw [memWrite_eq]
    exact ⟨rfl, rfl, rfl, rfl, rfl⟩
  · rw [portOut_only u n b, hr]
    exact ⟨rfl, rfl, rfl, rfl, rfl⟩
  · unfold State.inPort
    dsimp only
    rw [memWrite_eq, portIn_only s n]
    exact ⟨rfl, rfl, rfl, rfl, rfl⟩

/-! ## The machine cycle keeps the data and the phase -/

/-- With nothing queued and no idle state, Fetch and Interrupt ask nothing more. -/
theorem Stepper.phaseOk_of_queue_nil {t : Stepper} (hl : t.execLeft ≤ 2) (hi : t.idle = false) (hq : t.queue = [])
    (hc : t.cycle ≠ .dma ∧ t.cycle ≠ .execute) : t.phaseOk := by
  obtain ⟨hdma, hexec⟩ := hc
  exact ⟨hl, by simp [hdma, hq], by simp [hi], fun h => absurd h hexec⟩

/-- The request in a slot becomes at least one descriptor (40 R133). -/
theorem replicate_count_ne_nil {r : DmaRequest} (h : slotOk (some r) = true) (d : Descriptor) :
    List.replicate r.count d ≠ [] := by
  simp only [slotOk, Option.all_some, decide_eq_true_eq] at h
  simp only [ne_eq, List.replicate_eq_nil_iff]
  omega

/-- An arbitration with an empty queue and no idle state starts the phase that it chooses (40 R131, R133). -/
theorem arbitrate_ok {s : State} (hd : s.dataOk) (hl : s.stepper.execLeft ≤ 2) (hi : s.stepper.idle = false)
    (hq : s.stepper.queue = []) : s.arbitrate.stepper.phaseOk ∧ s.arbitrate.dataOk := by
  obtain ⟨hin, hout, hv, hp⟩ := hd
  rcases arbitrate_cases s with ⟨r, hr, h⟩ | ⟨-, r, hr, h⟩ | ⟨-, -, -, h⟩ | ⟨-, -, -, h⟩ <;> rw [h]
  · exact ⟨⟨hl, iff_of_true rfl (replicate_count_ne_nil (hr ▸ hin) _), by simp [hi], by simp⟩, rfl, hout, hv, hp⟩
  · exact ⟨⟨hl, iff_of_true rfl (replicate_count_ne_nil (hr ▸ hout) _), by simp [hi], by simp⟩, hin, rfl, hv, hp⟩
  · refine ⟨Stepper.phaseOk_of_queue_nil hl hi hq ?_, hin, hout, hv, hp⟩
    unfold State.interruptDecision
    split <;> exact ⟨nofun, nofun⟩
  · exact ⟨Stepper.phaseOk_of_queue_nil hl hi hq ⟨nofun, nofun⟩, hin, hout, hv, hp⟩

theorem execCycles_bounds (op : Byte) : 1 ≤ execCycles op ∧ execCycles op ≤ 2 := by
  unfold execCycles
  split <;> decide

theorem fetchCycle_ok {s : State} (hp : s.stepper.phaseOk) (hd : s.dataOk) (hc : s.stepper.cycle = .fetch)
    (adv : Bool) : (s.fetchCycle adv).stepper.phaseOk ∧ (s.fetchCycle adv).dataOk := by
  obtain ⟨-, hq, -, -⟩ := hp
  obtain ⟨h1, h2⟩ := execCycles_bounds (s.memRead s.pc)
  rw [fetchCycle_eq]
  exact ⟨⟨h2, by simpa [hc] using hq, fun _ => rfl, fun _ _ => h1⟩, hd⟩

theorem finishExecute_ok {s : State} (hp : s.stepper.phaseOk) (hd : s.dataOk) (hc : s.stepper.cycle = .execute)
    (hi : s.stepper.idle = false) : s.finishExecute.stepper.phaseOk ∧ s.finishExecute.dataOk := by
  obtain ⟨hl, hq, -, -⟩ := hp
  have hempty : s.stepper.queue = [] := by simpa [hc] using hq
  rcases finishExecute_cases s with ⟨-, h⟩ | ⟨hleft, h⟩ <;> rw [h]
  · exact arbitrate_ok (s := { s with stepper := { s.stepper with first := false, execLeft := 0 } }) hd
      (Nat.zero_le _) hi hempty
  · exact ⟨⟨by dsimp only; omega, hq, fun _ => hc, fun _ _ => by dsimp only; omega⟩, hd⟩

theorem idleCycle_ok {s : State} (hp : s.stepper.phaseOk) (hd : s.dataOk) (hc : s.stepper.cycle = .execute) :
    s.idleCycle.stepper.phaseOk ∧ s.idleCycle.dataOk := by
  unfold State.idleCycle
  split
  · obtain ⟨hl, hq, -, -⟩ := hp
    exact arbitrate_ok (s := { s with stepper := { s.stepper with idle := false } }) hd hl rfl (by simpa [hc] using hq)
  · exact ⟨hp, hd⟩

theorem executeCycle_ok {s t : State} (hp : s.stepper.phaseOk) (hd : s.dataOk) (hc : s.stepper.cycle = .execute)
    (h : s.executeCycle = .next t) : t.stepper.phaseOk ∧ t.dataOk := by
  unfold State.executeCycle at h
  split_ifs at h with hidle hfirst
  · cases h
    exact idleCycle_ok hp hd hc
  · obtain ⟨u, hu, hfin⟩ := andThen_eq_next_iff.1 h
    cases hfin
    have hp' := (exec_sameCycle hu).phaseOk hp
    obtain ⟨hcycle, -, hidle', -, -⟩ := exec_sameCycle hu
    exact finishExecute_ok hp' (exec_dataOk hu hd) (hcycle.trans hc)
      (hidle'.trans (Bool.eq_false_iff.2 hidle))
  · cases h
    exact finishExecute_ok hp hd hc (Bool.eq_false_iff.2 hidle)

theorem transferByte_dataOk {s : State} (h : s.dataOk) (d : Descriptor) : (s.transferByte d).2.dataOk := by
  unfold State.transferByte
  split
  · exact h
  · exact supply_dataOk (react_dataOk (emit_dataOk h _ _))
  · exact supply_dataOk h

theorem deliver_dataOk {s : State} (h : s.dataOk) (d : Descriptor) (b : Byte) : (s.deliver d b).dataOk := by
  unfold State.deliver
  split
  · exact h
  · exact react_dataOk (emit_dataOk h _ _)
  · exact dmaOutByte_dataOk h _ _

theorem transfer_dataOk {s : State} (h : s.dataOk) (d : Descriptor) : (s.transfer d).dataOk := by
  unfold State.transfer
  split
  · exact memWrite_dataOk (transferByte_dataOk h d) _ _
  · exact deliver_dataOk (s := (s.afterRead (s.reg 0)).setReg 0 (inc16 (s.reg 0))) h d _

theorem transfer_sameCycle (s : State) (d : Descriptor) : SameCycle s (s.transfer d) := by
  unfold State.transfer
  split
  · dsimp only
    rw [memWrite_eq, transferByte_only s d]
    exact ⟨rfl, rfl, rfl, rfl, rfl⟩
  · exact (deliver_only ((s.afterRead (s.reg 0)).setReg 0 (inc16 (s.reg 0))) d _).sameCycle

/-- A DMA cycle takes one descriptor off the queue, and arbitrates when that was the last (40 R134 to R136). -/
theorem dmaCycle_ok {s : State} (hp : s.stepper.phaseOk) (hd : s.dataOk) (hc : s.stepper.cycle = .dma) :
    s.dmaCycle.stepper.phaseOk ∧ s.dmaCycle.dataOk := by
  obtain ⟨hl, hq, hi, -⟩ := hp
  have hidle : s.stepper.idle = false := by simpa [hc] using hi
  unfold State.dmaCycle
  split
  · next hnil => exact absurd hnil (hq.1 hc)
  · next d rest _ =>
    dsimp only
    have hd1 := transfer_dataOk (s := { s with stepper := { s.stepper with queue := rest } }) hd d
    obtain ⟨hc1, hl1, hi1, -, -⟩ := transfer_sameCycle { s with stepper := { s.stepper with queue := rest } } d
    generalize State.transfer { s with stepper := { s.stepper with queue := rest } } d = s1 at *
    have hl2 : s1.stepper.execLeft ≤ 2 := hl1.trans_le hl
    have hi2 : s1.stepper.idle = false := hi1.trans hidle
    have hc2 : s1.stepper.cycle = .dma := hc1.trans hc
    split
    · next hempty => exact arbitrate_ok hd1 hl2 hi2 hempty
    · next hmore => exact ⟨⟨hl2, by simp [hc2, hmore], by simp [hi2], by simp [hc2]⟩, hd1⟩

theorem cpuStep_ok {s t : State} (hp : s.stepper.phaseOk) (hd : s.dataOk) (h : s.cpuStep = .next t) :
    t.stepper.phaseOk ∧ t.dataOk := by
  unfold State.cpuStep at h
  split at h
  · next hc => cases h; exact fetchCycle_ok hp hd hc _
  · next hc => exact executeCycle_ok hp hd hc h
  · next hc => cases h; exact dmaCycle_ok hp hd hc
  · next hc =>
    cases h
    obtain ⟨hl, hq, hi, -⟩ := hp
    rw [interruptEntry_eq]
    exact ⟨Stepper.phaseOk_of_queue_nil hl (by simpa [hc] using hi) (by simpa [hc] using hq) ⟨nofun, nofun⟩, hd⟩

theorem machineCycle_inv {s t : State} (hs : s.inv) (h : s.machineCycle = .next t) : t.inv := by
  obtain ⟨hp, hd, hclock⟩ := (inv_iff s).1 hs
  have hsame := (machineCycle_beforeStep s).sameCycle
  obtain ⟨hp', hd'⟩ := cpuStep_ok (hsame.phaseOk hp) (syncTick_dataOk (qOut_dataOk hd)) h
  exact (inv_iff t).2 ⟨hp', hd', by rwa [machineCycle_clock h]⟩

/-! ## The host's turn keeps the invariant -/

theorem clampHz_le_maxHz (f : Frequency) : (clampHz f).val ≤ Config.maxHz.val := by
  rw [clampHz_val]
  exact min_le_right _ _

theorem Stepper.reset_inv : Stepper.reset.inv := by
  refine ⟨Nat.zero_le _, ?_, ?_, ?_, rfl, rfl⟩ <;> decide

theorem setControlMode_inv {s : State} (h : s.inv) (m : ControlMode) (now : Rat) : (s.setControlMode m now).inv := by
  cases m with
  | reset =>
    obtain ⟨-, hv, ⟨-, -, hz⟩, hp⟩ := h
    exact ⟨Stepper.reset_inv, hv, ⟨le_rfl, Nat.zero_lt_succ _, hz⟩, hp⟩
  | run =>
    unfold State.setControlMode State.modeAction
    dsimp only
    split <;> exact h
  | pause | load => exact h

/-- Every action of the host keeps the invariant (70 R380, R381, R390, R394). -/
theorem hostAct_inv {s : State} (h : s.inv) (e : HostEvent) : (s.hostAct e).inv := by
  obtain ⟨hp, hd, hc⟩ := (inv_iff s).1 h
  cases e with
  | setControlMode m now => exact setControlMode_inv h m now
  | request r =>
    have hr := request_only s r
    have hclock : (s.request r).clock = s.clock := by rw [hr]
    exact (inv_iff _).2 ⟨hr.beforeStep.sameCycle.phaseOk hp, request_dataOk hd r, hclock ▸ hc⟩
  | swapBoard k =>
    have hk := swapBoard_dataOk hd k
    rw [State.hostAct]
    rw [swapBoard_eq] at hk ⊢
    exact (inv_iff _).2 ⟨hp, hk, hc⟩
  | loadByte buf off v =>
    obtain ⟨hst, hv, hclock, hm, hr⟩ := h
    exact ⟨hst, hv, hclock, Memory.wf_write hm _ _, hr⟩
  | setClock f =>
    obtain ⟨hst, hv, ⟨hacc, hphase, -⟩, hplat⟩ := h
    exact ⟨hst, hv, ⟨hacc, hphase, clampHz_le_maxHz f⟩, hplat⟩
  | setEf | setKeys | loadRom | releaseLatch => exact h

theorem hostActs_inv {s : State} (h : s.inv) (es : List HostEvent) : (es.foldl State.hostAct s).inv := by
  induction es generalizing s with
  | nil => exact h
  | cons e es ih => exact ih (hostAct_inv h e)

theorem driveKeypad_inv {s : State} (h : s.inv) : s.driveKeypad.inv := by
  unfold State.driveKeypad
  split <;> exact h

theorem hostTurn_inv {s : State} (h : s.inv) : s.hostTurn.inv := by
  unfold State.hostTurn
  split
  · exact driveKeypad_inv h
  · next evs rest _ =>
    exact driveKeypad_inv (hostActs_inv (s := { s with env := { s.env with script := rest } }) h evs)

/-! ## The step -/

theorem boundary_inv {s t : State} (hs : s.inv) (h : s.boundary = .next t) : t.inv := by
  unfold State.boundary at h
  dsimp only at h
  split at h
  · exact machineCycle_inv (hostTurn_inv hs) h
  · cases h; exact hostTurn_inv hs

/-- Settles O57: every boundary keeps the invariant, so every step does. -/
theorem stepKeepsInvariant : Obligations.StepKeepsInvariant := by
  intro s t hs h
  exact step_keeps (fun _ _ => boundary_inv) hs h

/-- Settles O56: each part of the machine starts within its ranges, with nothing queued and the memory empty. -/
theorem resetMeetsInvariant : Obligations.ResetMeetsInvariant := by
  have hvideo : Video.reset.inv := ⟨by decide, by decide, by decide⟩
  have hclock : Clock.reset.inv := ⟨le_rfl, by decide, by decide⟩
  have hplat : Platform.reset.inv := ⟨⟨.nil, by simp [Platform.reset]⟩, by decide, by decide⟩
  exact ⟨Stepper.reset_inv, hvideo, hclock, hplat⟩

end Sys2Proof.Machine
end

section
/-! PROOFS. B is unobservable (O59). A machine cycle neither reads nor writes B, and neither does it read or write the
script: so each of its operations commutes with a change of both, and the two facts have one proof. -/

namespace Sys2Proof.Machine

/-! ## Operations that do not see B and the script -/

/-- `s` with other values in what a machine cycle does not see: B and the script. -/
def State.withUnseen (s : State) (b : Byte) (sc : List (List HostEvent)) : State :=
  { s with cpu := { s.cpu with b := b }, env := { s.env with script := sc } }

@[simp] theorem withUnseen_stepper (s : State) (b : Byte) (sc : List (List HostEvent)) :
    (s.withUnseen b sc).stepper = s.stepper := rfl
@[simp] theorem withUnseen_plat (s : State) (b : Byte) (sc : List (List HostEvent)) :
    (s.withUnseen b sc).plat = s.plat := rfl
@[simp] theorem withUnseen_reactions (s : State) (b : Byte) (sc : List (List HostEvent)) :
    (s.withUnseen b sc).env.reactions = s.env.reactions := rfl

/-- `f` neither reads nor writes B and the script: on a state with other values there it answers what it answered, with
those values where `act` puts them. -/
def BlindTo {γ : Type} (act : γ → Byte → List (List HostEvent) → γ) (f : State → γ) : Prop :=
  ∀ s b sc, f (s.withUnseen b sc) = act (f s) b sc

/-- An operation that neither reads nor writes B and the script. -/
abbrev Blind (f : State → State) : Prop := BlindTo State.withUnseen f

/-- As `Blind`, for an operation that also answers a byte. -/
abbrev BlindByte (f : State → Byte × State) : Prop := BlindTo (fun r b sc => (r.1, r.2.withUnseen b sc)) f

/-- As `Blind`, for a meaning. -/
abbrev BlindResult (f : State → Result) : Prop := BlindTo (fun o b sc => mapNext (·.withUnseen b sc) o) f

theorem Blind.id : Blind fun s => s := fun _ _ _ => rfl

section
variable {γ : Type} {act : γ → Byte → List (List HostEvent) → γ}

theorem BlindTo.comp {g : State → γ} {f : State → State} (hg : BlindTo act g) (hf : Blind f) :
    BlindTo act fun s => g (f s) := fun s b sc =>
  (congrArg g (hf s b sc)).trans (hg (f s) b sc)

theorem BlindTo.ite {c : State → Prop} [DecidablePred c] {f g : State → γ}
    (hc : ∀ s b sc, c (s.withUnseen b sc) ↔ c s) (hf : BlindTo act f) (hg : BlindTo act g) :
    BlindTo act fun s => if c s then f s else g s := by
  intro s b sc
  by_cases h : c s
  · simpa only [if_pos h, if_pos ((hc s b sc).2 h)] using hf s b sc
  · simpa only [if_neg h, if_neg (mt (hc s b sc).1 h)] using hg s b sc

/-- A condition that was settled before the operation. -/
theorem Blind.when (c : Bool) {f : State → State} (hf : Blind f) : Blind fun s => if c = true then f s else s :=
  BlindTo.ite (c := fun _ => c = true) (fun _ _ _ => .rfl) hf Blind.id

/-- What follows may use the byte. -/
theorem BlindByte.bind {f : State → Byte × State} {g : Byte → State → γ} (hf : BlindByte f)
    (hg : ∀ v, BlindTo act (g v)) : BlindTo act fun s => g (f s).1 (f s).2 := fun s b sc =>
  (congrArg (fun r => g r.1 r.2) (hf s b sc)).trans (hg (f s).1 (f s).2 b sc)
end

theorem Blind.next {f : State → State} (hf : Blind f) : BlindResult fun s => .next (f s) := fun s b sc =>
  congrArg Host.Outcome.next (hf s b sc)

theorem BlindResult.andThen {f g : State → Result} (hf : BlindResult f) (hg : BlindResult g) :
    BlindResult fun s => andThen (f s) g := by
  intro s b sc
  refine (congrArg (Machine.andThen · g) (hf s b sc)).trans ?_
  dsimp only
  cases f s with
  | next u => exact hg u b sc
  | fault | refused => rfl

/-- What a meaning does not see it leaves as it was. -/
theorem BlindResult.script {f : State → Result} (hf : BlindResult f) {s t : State} (h : f s = .next t) :
    t.env.script = s.env.script := by
  have hself : f s = mapNext (·.withUnseen s.cpu.b s.env.script) (f s) := hf s s.cpu.b s.env.script
  rw [h] at hself
  injection hself with hself
  rw [hself]
  rfl

theorem BlindResult.withB {f : State → Result} (hf : BlindResult f) {s t : State} (h : f s = .next t) (b : Byte) :
    f (s.withB b) = .next (t.withB b) := by
  have hb : f (s.withB b) = mapNext (·.withUnseen b s.env.script) (f s) := hf s b s.env.script
  rw [hb, h, ← hf.script h]
  rfl

/-! ## Calls and requests -/

theorem emit_blind (a : Bool) (o : Output) : Blind (·.emit a o) := by
  intro s b sc
  cases a <;> rfl

theorem issueDma_blind (d : Dir) (r : DmaRequest) : Blind (·.issueDma d r) := by
  intro s b sc
  simp only [State.issueDma, withUnseen_stepper]
  split
  · rfl
  · cases s.stepper.slot d <;> rfl

theorem issueInterrupt_blind : Blind State.issueInterrupt :=
  BlindTo.ite (c := fun s => s.stepper.intPending = true) (fun _ _ _ => .rfl) Blind.id (fun _ _ _ => rfl)

theorem request_blind (r : Request) : Blind (·.request r) := by
  cases r with
  | dma d q => exact issueDma_blind d q
  | interrupt => exact issueInterrupt_blind

theorem requests_blind (rs : List Request) : Blind (rs.foldl State.request) := by
  induction rs with
  | nil => exact Blind.id
  | cons r rs ih => exact ih.comp (request_blind r)

theorem react_blind : Blind State.react := by
  intro s b sc
  simp only [State.react, withUnseen_reactions]
  cases s.env.reactions with
  | nil => rfl
  | cons rs rest => exact requests_blind rs { s with env := { s.env with reactions := rest } } b sc

theorem supply_blind : BlindByte State.supply := by
  intro s b sc
  rw [supply_eq, supply_eq]
  rfl

theorem qOut_blind : Blind State.qOut :=
  BlindTo.ite (c := fun s => s.plat.wiring.attached.qOut = true) (fun _ _ _ => .rfl)
    (react_blind.comp fun s => emit_blind true (.q s.cpu.q) s) Blind.id

/-! ## The devices -/

theorem present_blind : Blind State.present := fun s => emit_blind s.plat.wiring.attached.present .present s

theorem clearFrame_blind : Blind State.clearFrame := fun s => emit_blind s.plat.wiring.attached.clearFrame .clearFrame s

/-- `Sync()` is four conditional operations, each on the counters held at entry, and the advance (60 R321). -/
theorem sync_blind : Blind State.sync := by
  intro s b sc
  have h1 := Blind.when s.video.writesFlag (f := (·.setEf Config.videoEf s.video.inFlagWindow)) fun _ _ _ => rfl
  have h2 := Blind.when s.video.requestsInterrupt issueInterrupt_blind
  have h3 := Blind.when s.video.requestsDma (issueDma_blind .output ⟨Config.dmaBurst, Config.videoCtx, .video⟩)
  have h4 := Blind.when s.video.presents present_blind
  have h5 : Blind fun u => { u with video := u.video.advance } := fun _ _ _ => rfl
  exact (h5.comp (h4.comp (h3.comp (h2.comp h1)))) s b sc

theorem syncTick_blind : Blind State.syncTick :=
  BlindTo.ite (c := fun s => s.plat.wiring.attached.sync = true) (fun _ _ _ => .rfl) sync_blind Blind.id

theorem setDisplay_blind (e : Bool) : Blind (·.setDisplay e) := by
  cases e with
  | true => exact fun _ _ _ => rfl
  | false =>
    exact (present_blind.comp clearFrame_blind).comp
      (f := fun s => { s with video := { s.video with display := false, cursor := 0 } }) fun _ _ _ => rfl

theorem driveKeypad_blind : Blind State.driveKeypad := by
  intro s b sc
  simp only [State.driveKeypad, withUnseen_plat]
  cases s.plat.wiring.keypadEf <;> rfl

theorem setRate_blind (v : Byte) : Blind (·.setRate v) := by
  intro s b sc
  simp only [State.setRate, withUnseen_plat]
  cases s.plat.board <;> rfl

theorem stepBackground_blind (d : Dir) (n : Port) : Blind (·.stepBackground d n) := by
  intro s b sc
  simp only [State.stepBackground, withUnseen_plat]
  cases s.plat.board with
  | vp590 v => dsimp only; split <;> rfl
  | none | vp585 | vp595 => rfl

/-! ## Memory and ports -/

theorem memWrite_blind (a : Word) (v : Byte) : Blind (·.memWrite a v) := by
  intro s b sc
  dsimp only
  rw [memWrite_eq, memWrite_eq s, memWrite_board, memWrite_board s]
  rfl

theorem deviceOut_blind (dev : OutDevice) (v : Byte) : Blind (·.deviceOut dev v) := by
  cases dev with
  | ignored => exact Blind.id
  | displayOff => exact setDisplay_blind false
  | keyLatch =>
    exact driveKeypad_blind.comp (f := fun s => { s with plat := { s.plat with keyLatch := lowNibble v } })
      fun _ _ _ => rfl
  | divider => exact setRate_blind v
  | external => exact react_blind

theorem deviceIn_blind (dev : InDevice) : BlindByte (·.deviceIn dev) := by
  cases dev with
  | nothing | displayOn => exact fun _ _ _ => rfl
  | external => exact supply_blind.comp react_blind

theorem touch_blind (k : AccessKind) (a : Nat) : Blind (·.touch k a) := fun _ _ _ => rfl

theorem portOut_blind (n : Port) (v : Byte) : Blind (·.portOut n v) := by
  refine (touch_blind .portOut n.toNat).comp (.ite (c := fun s => s.plat.wiring.attached.portOut = true) ?_ ?_ Blind.id)
  · exact fun _ _ _ => .rfl
  · exact (stepBackground_blind .output n).comp fun s b sc =>
      ((deviceOut_blind (s.plat.wiring.out[n.toNat]'n.isLt) v).comp (emit_blind true (.portOut n v))) s b sc

/-- The byte of a port is the device's, but for the VP590's background port (60 R334). -/
theorem portIn_blind (n : Port) : BlindByte (·.portIn n) := by
  refine .ite (c := fun s => s.plat.wiring.attached.portIn = true) (fun _ _ _ => .rfl) ?_ fun _ _ _ => rfl
  intro s b sc
  have hdev := (deviceIn_blind (s.plat.wiring.inp[n.toNat]'n.isLt)).comp (emit_blind true (.portIn n)) s b sc
  have hstep := (touch_blind .portIn n.toNat).comp (stepBackground_blind .input n)
  exact (congrArg (fun r : Byte × State => (if s.atBackground n then Config.vp590BackgroundByte else r.1,
    (r.2.stepBackground .input n).touch .portIn n.toNat)) hdev).trans (congrArg (Prod.mk _) (hstep _ b sc))

/-! ## Instructions -/

/-- The byte goes to R[X] and to D (45 R283). -/
theorem inPort_blind (n : Port) : Blind (·.inPort n) :=
  (portIn_blind n).bind (g := fun v s => (s.memWrite (s.reg s.cpu.x) v).setD v) fun v s b sc =>
    congrArg (·.setD v) (memWrite_blind (s.reg s.cpu.x) v s b sc)

theorem outPort_blind (n : Port) : Blind (·.outPort n) := fun s b sc =>
  let a := s.reg s.cpu.x
  portOut_blind n (s.memRead a) ((s.afterRead a).setReg s.cpu.x (inc16 a)) b sc

theorem longBranch_blind (cond : Bool) (hl : Word) : Blind (·.longBranch cond hl) := by
  cases cond <;> exact fun _ _ _ => rfl

theorem longSkip_blind (cond : Bool) : Blind (·.longSkip cond) := by
  cases cond <;> exact fun _ _ _ => rfl

/-- No instruction sees B or the script. -/
theorem exec_blind (i : Instr) : BlindResult (exec i) := by
  intro s b sc
  cases i
  case lbr | lbq | lbz | lbdf | lbnq | lbnz | lbnf =>
    exact congrArg Host.Outcome.next (longBranch_blind _ _ s b sc)
  case lsnq | lsnz | lsnf | lskp | lsie | lsq | lsz | lsdf =>
    exact congrArg Host.Outcome.next (longSkip_blind _ s b sc)
  case out1 | out2 | out3 | out4 | out5 | out6 | out7 => exact congrArg Host.Outcome.next (outPort_blind _ s b sc)
  case inp0 | inp1 | inp2 | inp3 | inp4 | inp5 | inp6 | inp7 =>
    exact congrArg Host.Outcome.next (inPort_blind _ s b sc)
  case str | sav => exact congrArg Host.Outcome.next (memWrite_blind _ _ s b sc)
  case stxd =>
    exact congrArg (fun u : State => Host.Outcome.next (u.setReg s.cpu.x (dec16 (s.reg s.cpu.x))))
      (memWrite_blind _ _ s b sc)
  case mark =>
    exact congrArg (fun u : State => Host.Outcome.next ((u.setX s.cpu.p).setReg 2 (dec16 (s.reg 2))))
      (memWrite_blind _ _ (s.setT (packNibbles s.cpu.x s.cpu.p)) b sc)
  all_goals rfl

/-! ## The machine cycle -/

theorem accept_blind (d : Dir) : Blind (·.accept d) := by
  intro s b sc
  simp only [State.accept, withUnseen_stepper]
  cases s.stepper.slot d <;> rfl

theorem goto_blind (c : CycleState) : Blind (·.goto c) := fun _ _ _ => rfl

theorem arbitrate_blind : Blind State.arbitrate :=
  .ite (c := fun s => s.stepper.slotIn.isSome = true) (fun _ _ _ => .rfl)
    ((goto_blind .dma).comp (accept_blind .input)) <|
  .ite (c := fun s => s.stepper.slotOut.isSome = true) (fun _ _ _ => .rfl)
    ((goto_blind .dma).comp (accept_blind .output)) <|
  .ite (c := fun s => s.stepper.intPending = true) (fun _ _ _ => .rfl) (fun _ _ _ => rfl) (goto_blind .fetch)

theorem idleCycle_blind : Blind State.idleCycle :=
  .ite (c := fun s => (s.stepper.slotIn.isSome || s.stepper.slotOut.isSome || s.stepper.intPending) = true)
    (fun _ _ _ => .rfl)
    (arbitrate_blind.comp (f := fun s => { s with stepper := { s.stepper with idle := false } }) fun _ _ _ => rfl)
    Blind.id

theorem finishExecute_blind : Blind State.finishExecute :=
  .ite (c := fun s => s.stepper.execLeft - 1 = 0) (fun _ _ _ => .rfl)
    (arbitrate_blind.comp
      (f := fun s => { s with stepper := { s.stepper with first := false, execLeft := s.stepper.execLeft - 1 } })
      fun _ _ _ => rfl)
    fun _ _ _ => rfl

theorem executeCycle_blind : BlindResult State.executeCycle :=
  .ite (c := fun s => s.stepper.idle = true) (fun _ _ _ => .rfl) idleCycle_blind.next <|
  .ite (c := fun s => s.stepper.first = true) (fun _ _ _ => .rfl)
    (BlindResult.andThen (fun s => exec_blind s.operandInstr s) finishExecute_blind.next) finishExecute_blind.next

theorem dmaOutByte_blind (ctx : Nat) (v : Byte) : Blind (·.dmaOutByte ctx v) := fun s b sc =>
  congrArg (fun u : State => { u with video := { u.video with cursor := (u.video.cursor + 1) % Config.displayBytes } })
    (emit_blind s.plat.wiring.attached.pixel _ s b sc)

theorem transferByte_blind (d : Descriptor) : BlindByte (·.transferByte d) := by
  unfold State.transferByte
  cases d.cb with
  | null => exact fun _ _ _ => rfl
  | host => exact supply_blind.comp (react_blind.comp (emit_blind true (.dmaIn d.ctx)))
  | video => exact supply_blind

theorem deliver_blind (d : Descriptor) (v : Byte) : Blind (·.deliver d v) := by
  unfold State.deliver
  cases d.cb with
  | null => exact Blind.id
  | host => exact react_blind.comp (emit_blind true (.dmaOut d.ctx v))
  | video => exact dmaOutByte_blind d.ctx v

theorem transfer_blind (d : Descriptor) : Blind (·.transfer d) := by
  unfold State.transfer
  cases d.dir with
  | input =>
    exact (transferByte_blind d).bind (g := fun v s => (s.memWrite (s.reg 0) v).setReg 0 (inc16 (s.reg 0)))
      fun v s b sc => congrArg (·.setReg 0 (inc16 (s.reg 0))) (memWrite_blind (s.reg 0) v s b sc)
  | output =>
    exact fun s b sc => deliver_blind d (s.memRead (s.reg 0)) ((s.afterRead (s.reg 0)).setReg 0 (inc16 (s.reg 0))) b sc

theorem dmaCycle_blind : Blind State.dmaCycle := by
  intro s b sc
  simp only [State.dmaCycle, withUnseen_stepper]
  cases s.stepper.queue with
  | nil => exact arbitrate_blind s b sc
  | cons d rest =>
    have hmore : Blind fun u => if u.stepper.queue = [] then u.arbitrate else u :=
      .ite (fun _ _ _ => .rfl) arbitrate_blind Blind.id
    exact hmore.comp (transfer_blind d) { s with stepper := { s.stepper with queue := rest } } b sc

theorem cpuStep_blind : BlindResult State.cpuStep := by
  intro s b sc
  simp only [State.cpuStep, withUnseen_stepper]
  cases s.stepper.cycle with
  | fetch | interrupt => rfl
  | execute => exact executeCycle_blind s b sc
  | dma => exact dmaCycle_blind.next s b sc

theorem machineCycle_blind : BlindResult State.machineCycle :=
  cpuStep_blind.comp (syncTick_blind.comp qOut_blind)

/-! ## The step, with nothing scripted -/

/-- A boundary at which the host's turn only drives the keypad's line. -/
def State.unscriptedBoundary (s : State) : Result :=
  let s1 := s.driveKeypad
  if s1.clock.mode = .run then s1.machineCycle else .next s1

theorem boundary_eq_unscripted {s : State} (h : s.env.script = []) : s.boundary = s.unscriptedBoundary := by
  unfold State.boundary
  rw [hostTurn_nil h]
  rfl

theorem unscriptedBoundary_blind : BlindResult State.unscriptedBoundary :=
  BlindTo.comp (g := fun s => if s.clock.mode = .run then s.machineCycle else .next s)
    (.ite (fun _ _ _ => .rfl) machineCycle_blind Blind.id.next) driveKeypad_blind

section
variable {s t : State} (hs : s.env.script = []) (b : Byte)
include hs

theorem boundary_script (h : s.boundary = .next t) : t.env.script = [] := by
  rw [boundary_eq_unscripted hs] at h
  rw [unscriptedBoundary_blind.script h, hs]

theorem boundary_withB (h : s.boundary = .next t) : (s.withB b).boundary = .next (t.withB b) := by
  rw [boundary_eq_unscripted hs] at h
  rw [boundary_eq_unscripted (s := s.withB b) hs, unscriptedBoundary_blind.withB h]

/-- How many boundaries the rest of an instruction takes does not depend on B (log 1). -/
theorem finishInstruction_withB {fuel : Nat} (h : s.finishInstruction fuel = .next t) :
    (s.withB b).finishInstruction fuel = .next (t.withB b) := by
  induction fuel generalizing s with
  | zero => cases h; rfl
  | succ fuel ih =>
    unfold State.finishInstruction at h ⊢
    have hmid : (s.withB b).midInstruction = s.midInstruction := rfl
    rw [hmid]
    split_ifs at h ⊢
    · obtain ⟨u, hu, h⟩ := andThen_eq_next_iff.1 h
      exact andThen_eq_next_iff.2 ⟨u.withB b, boundary_withB hs b hu, ih (boundary_script hs hu) h⟩
    · cases h; rfl
end

/-- Settles O59: no boundary reads B, so neither does the step's first one nor the rest of its instruction. -/
theorem bIsUnobservable : Obligations.BIsUnobservable := by
  intro s t b hs h
  obtain ⟨u, hu, h⟩ := andThen_eq_next_iff.1 h
  exact andThen_eq_next_iff.2
    ⟨u.withB b, boundary_withB hs b hu, finishInstruction_withB (boundary_script hs hu) b h⟩

end Sys2Proof.Machine
end

section
/-! PROOFS. Which instructions write the control registers (O58): every instruction has one of seven shapes. -/

namespace Sys2Proof.Machine

/-- What an instruction can make of the CPU registers, by the control registers it writes: most instructions write none
of them, and B, I and N are in no shape. -/
inductive CpuAfter : Instr → Cpu → Cpu → Prop
  | data {i : Instr} {c : Cpu} {r : Vector Word 16} {d : Byte} {ef : Vector Bool 4} :
    CpuAfter i c { c with r := r, d := d, ef := ef }
  | alu {i : Instr} {c : Cpu} {r : Vector Word 16} {d : Byte} {df : Bool} (h : writesDf i = true) :
    CpuAfter i c { c with r := r, d := d, df := df }
  | sep {n : Nat} {c : Cpu} : CpuAfter (.sep n) c { c with p := regNo n }
  | sex {n : Nat} {c : Cpu} : CpuAfter (.sex n) c { c with x := regNo n }
  | restore {i : Instr} {c : Cpu} {r : Vector Word 16} {x p : Nibble} {ie : Bool} (h : i = .ret ∨ i = .dis) :
    CpuAfter i c { c with r := r, x := x, p := p, ie := ie }
  | mark {c : Cpu} {r : Vector Word 16} {x : Nibble} {t : Byte} : CpuAfter .mark c { c with r := r, x := x, t := t }
  | output {i : Instr} {c : Cpu} {q : Bool} (h : i = .req ∨ i = .seq) : CpuAfter i c { c with q := q }

theorem setReg_cpu (s : State) (n : Nibble) (v : Word) :
    (s.setReg n v).cpu = { s.cpu with r := s.cpu.r.set n.toNat v n.isLt } := rfl

theorem longBranch_cpuAfter (i : Instr) (s : State) (cond : Bool) (hl : Word) :
    CpuAfter i s.cpu (s.longBranch cond hl).cpu := by
  cases cond <;> exact .data

theorem longSkip_cpuAfter (i : Instr) (s : State) (cond : Bool) : CpuAfter i s.cpu (s.longSkip cond).cpu := by
  cases cond <;> exact .data

theorem outPort_cpuAfter (i : Instr) (s : State) (n : Port) : CpuAfter i s.cpu (s.outPort n).cpu := by
  unfold State.outPort
  dsimp only
  rw [portOut_only]
  exact .data

theorem inPort_cpuAfter (i : Instr) (s : State) (n : Port) : CpuAfter i s.cpu (s.inPort n).cpu := by
  have hcpu : (s.inPort n).cpu = { (s.portIn n).2.cpu with d := (s.portIn n).1 } :=
    congrArg (fun c : Cpu => { c with d := (s.portIn n).1 }) (memWrite_cpu _ _ _)
  rw [hcpu, portIn_only]
  exact .data

theorem exec_cpuAfter {i : Instr} {s t : State} (h : exec i s = .next t) : CpuAfter i s.cpu t.cpu := by
  cases i
  case add | adi | adc | adci | sd | sdi | sdb | sdbi | sm | smi | smb | smbi | shr | shrc | shl | shlc =>
    cases h; exact .alu rfl
  case sep => cases h; exact .sep
  case sex => cases h; exact .sex
  case ret => cases h; exact .restore (.inl rfl)
  case dis => cases h; exact .restore (.inr rfl)
  case mark =>
    cases h
    show CpuAfter _ s.cpu ((((s.setT _).memWrite _ _).setX _).setReg _ _).cpu
    rw [memWrite_eq]
    exact .mark
  case req => cases h; exact .output (.inl rfl)
  case seq => cases h; exact .output (.inr rfl)
  case lbr | lbq | lbz | lbdf | lbnq | lbnz | lbnf => cases h; exact longBranch_cpuAfter _ s _ _
  case lsnq | lsnz | lsnf | lskp | lsie | lsq | lsz | lsdf => cases h; exact longSkip_cpuAfter _ s _
  case out1 | out2 | out3 | out4 | out5 | out6 | out7 => cases h; exact outPort_cpuAfter _ s _
  case inp0 | inp1 | inp2 | inp3 | inp4 | inp5 | inp6 | inp7 => cases h; exact inPort_cpuAfter _ s _
  case str | sav => cases h; rw [memWrite_cpu]; exact .data
  case stxd =>
    cases h
    rw [setReg_cpu, memWrite_cpu]
    exact .data
  all_goals cases h; exact .data

/-- Settles O58: each shape changes no control register but those of its instructions. -/
theorem controlRegisterWriters : Obligations.ControlRegisterWriters := by
  intro i s t h
  have hc := exec_cpuAfter h
  generalize s.cpu = c, t.cpu = c' at hc ⊢
  cases hc with
  | data | sep | sex | mark => simp [writesP, writesX]
  | alu hdf => simp [hdf]
  | restore hi => rcases hi with rfl | rfl <;> simp [writesP, writesX]
  | output hi => simp [hi]

end Sys2Proof.Machine
end

section
/-! PROOFS. Construction and the values after reset (O51). -/

namespace Sys2Proof.Machine

/-- A requested frequency of the reset clock's is not clamped (70 R386). -/
theorem clampHz_reset {f : Frequency} (h : f.val = 1760900) : clampHz f = Clock.reset.hz := by
  apply Subtype.ext
  rw [clampHz_val, h]
  exact min_eq_left (by decide)

/-- Construction passes through the Reset transition, which leaves the requested frequency alone. -/
theorem construct_allZero (f : Frequency) :
    State.construct .allZero f = { State.reset with clock := { State.reset.clock with hz := clampHz f } } := rfl

/-- Settles O51: the requested frequency is all that construction adds to the state after reset. -/
theorem resetStateValues : Obligations.ResetStateValues := by
  refine ⟨fun f => ⟨construct_allZero f, (clampHz f).2, clampHz_val f, fun h => ?_⟩, rfl, rfl, rfl, rfl, rfl, rfl, rfl,
    rfl, fun n => ?_, fun now => ⟨?_, rfl⟩⟩
  · rw [construct_allZero, clampHz_reset h]
    rfl
  · exact Vector.getElem_replicate ..
  · rfl

end Sys2Proof.Machine
end

section
/-! PROOFS. The memory map's dispatch of reads (O54) and of writes (O55), from one equation per access and selection. -/

namespace Sys2Proof.Machine

/-! ## The selection -/

theorem Region.covers_iff {r : Region} {a : Word} : r.covers a = true ↔ r.start ≤ a ∧ a ≤ r.stop := by
  simp [Region.covers]

section
variable {s : State} {a : Word}

/-- Selection is by list order alone; the access bits have no part in it (20 R73). -/
theorem select_eq_some_iff {r : Region} : s.select a = some r ↔ ∃ before after, s.plat.map = before ++ r :: after ∧
    (r.start ≤ a ∧ a ≤ r.stop) ∧ ∀ q ∈ before, ¬ (q.start ≤ a ∧ a ≤ q.stop) := by
  simp only [State.select, List.find?_eq_some_iff_append, Bool.not_eq_true', ← Bool.not_eq_true, Region.covers_iff]
  constructor
  · rintro ⟨hr, before, after, hmap, hbefore⟩
    exact ⟨before, after, hmap, hr, hbefore⟩
  · rintro ⟨before, after, hmap, hr, hbefore⟩
    exact ⟨hr, before, after, hmap, hbefore⟩

theorem select_head {r : Region} {rs : List Region} (hmap : s.plat.map = r :: rs) (hlo : r.start ≤ a) (hhi : a ≤ r.stop) :
    s.select a = some r :=
  select_eq_some_iff.2 ⟨[], rs, hmap, ⟨hlo, hhi⟩, nofun⟩

/-- With the latch set and a ROM image, region 0 is the image's read-only view (20 R85). -/
theorem map_of_latch {q : Platform} {r : Region} {rs : List Region} {m : Rom} (hrs : q.regions = r :: rs)
    (hm : q.rom = some m) (hl : q.latch = true) : q.map = r.shadowed m :: rs := by
  simp [Platform.map, hrs, hm, hl]

/-- With the latch reset, accesses see the region list itself (20 R85). -/
theorem map_of_not_latch {q : Platform} (hl : q.latch = false) : q.map = q.regions := by
  simp [Platform.map, hl]

/-! ## The byte that an access reaches -/

theorem Region.cell_eq (r : Region) (allowed : Bool) (a : Word) :
    r.cell allowed a = if allowed = true ∧ a.toNat - r.start.toNat < r.size
      then some (cellKey r.buf (a.toNat - r.start.toNat)) else none := by
  simp only [Region.cell, Bool.and_eq_true, decide_eq_true_eq]
  rfl

theorem memRead_of_select_none (h : s.select a = none) : s.memRead a = 0 := by
  simp [State.memRead, State.readCell, h]

theorem memRead_of_select {r : Region} (h : s.select a = some r) : s.memRead a =
    if r.canRead = true ∧ a.toNat - r.start.toNat < r.size then
      s.plat.mem.read (cellKey r.buf (a.toNat - r.start.toNat)) else 0 := by
  simp only [State.memRead, State.readCell, h, Region.cell_eq]
  split_ifs <;> rfl

theorem writeCell_of_select_none (h : s.select a = none) : s.writeCell a = none := by
  simp [State.writeCell, h]

theorem writeCell_of_select {r : Region} (h : s.select a = some r) : s.writeCell a =
    if r.canWrite = true ∧ a.toNat - r.start.toNat < r.size
      then some (cellKey r.buf (a.toNat - r.start.toNat)) else none := by
  simp only [State.writeCell, h, Region.cell_eq]

/-! ## Writes -/

/-- A write that the map refuses is dropped (20 R75, 60 R302). -/
theorem memWrite_mem_of_refused (v : Byte) (h : s.writeCell a = none) :
    (s.memWrite a v).plat.mem = s.plat.mem := by
  rw [memWrite_mem, h]

theorem memWrite_mem_of_not_canWrite {r : Region} (v : Byte) (h : s.select a = some r) (hw : r.canWrite = false) :
    (s.memWrite a v).plat.mem = s.plat.mem :=
  memWrite_mem_of_refused v (by simp [writeCell_of_select h, hw])

theorem memWrite_mem_of_size_le {r : Region} (v : Byte) (h : s.select a = some r)
    (hsize : r.size ≤ a.toNat - r.start.toNat) : (s.memWrite a v).plat.mem = s.plat.mem :=
  memWrite_mem_of_refused v (by rw [writeCell_of_select h, if_neg fun hc => hc.2.not_ge hsize])

/-- A write that the map allows stores the byte in the selected region's buffer, and no other byte (20 R75). -/
theorem memWrite_read {r : Region} (v : Byte) (hwf : s.plat.mem.wf) (h : s.select a = some r) (hw : r.canWrite = true)
    (hsize : a.toNat - r.start.toNat < r.size) (k : Nat) : (s.memWrite a v).plat.mem.read k =
      if k = cellKey r.buf (a.toNat - r.start.toNat) then v else s.plat.mem.read k := by
  have hcell : s.writeCell a = some (cellKey r.buf (a.toNat - r.start.toNat)) := by
    rw [writeCell_of_select h, if_pos ⟨hw, hsize⟩]
  rw [memWrite_mem, hcell]
  exact Memory.read_write hwf _ _ _

/-- A write selects as before where the latch keeps its value. -/
theorem memWrite_select {v : Byte} (hl : (s.memWrite a v).plat.latch = s.plat.latch) (b : Word) :
    (s.memWrite a v).select b = s.select b := by
  rw [State.select, memWrite_map hl, State.select]

/-- Read after write, through the map (20 R74, R75). -/
theorem memRead_memWrite {r : Region} {v : Byte} (hwf : s.plat.mem.wf) (h : s.select a = some r)
    (hr : r.canRead = true) (hw : r.canWrite = true) (hsize : a.toNat - r.start.toNat < r.size)
    (hl : (s.memWrite a v).plat.latch = s.plat.latch) : (s.memWrite a v).memRead a = v := by
  have hsel : (s.memWrite a v).select a = some r := (memWrite_select hl a).trans h
  rw [memRead_of_select hsel, if_pos ⟨hr, hsize⟩, memWrite_read v hwf h hw hsize, if_pos rfl]

/-! ## The ROM shadow -/

section
variable {r : Region} {rs : List Region} {m : Rom}
variable (hrs : s.plat.regions = r :: rs) (hlo : r.start ≤ a) (hhi : a ≤ r.stop)
include hrs hlo hhi

theorem select_shadowed (hm : s.plat.rom = some m) (hl : s.plat.latch = true) : s.select a = some (r.shadowed m) :=
  select_head (map_of_latch hrs hm hl) hlo hhi

theorem select_unshadowed (hl : s.plat.latch = false) : s.select a = some r :=
  select_head ((map_of_not_latch hl).trans hrs) hlo hhi

/-- While the latch is set, region 0 reads the ROM image (20 R85). -/
theorem memRead_shadowed (hm : s.plat.rom = some m) (hl : s.plat.latch = true) : s.memRead a =
    if a.toNat - r.start.toNat < m.size then
      s.plat.mem.read (cellKey m.buf (a.toNat - r.start.toNat)) else 0 := by
  simpa [Region.shadowed] using memRead_of_select (select_shadowed hrs hlo hhi hm hl)
end
end

/-! ## The obligations -/

/-- Settles O54: the equations of the selection and of a read. -/
theorem readDispatch : Obligations.ReadDispatch := fun s a =>
  ⟨fun _ => select_eq_some_iff, memRead_of_select_none, fun _ => memRead_of_select, readFrame_afterRead s a⟩

/-- Settles O55: a write reaches the one byte that the selection gives, and the shadow is a selection that refuses it. -/
theorem writeDispatchAndRoundTrip : Obligations.WriteDispatchAndRoundTrip := by
  intro s a v hwf
  refine ⟨writeFrame_memWrite s a v, memWrite_cpu s a v, fun _ => memRead_memWrite hwf,
    fun _ => memWrite_mem_of_not_canWrite v, fun h => memWrite_mem_of_refused v (writeCell_of_select_none h),
    fun _ => memWrite_mem_of_size_le v, fun _ => memWrite_read v hwf, fun r0 rs m hrs hm hlo hhi => ⟨fun hl => ?_, ?_⟩⟩
  · exact ⟨memWrite_mem_of_not_canWrite v (select_shadowed hrs hlo hhi hm hl) rfl, memRead_shadowed hrs hlo hhi hm hl⟩
  · exact select_unshadowed hrs hlo hhi

end Sys2Proof.Machine
end

section
/-! PROOFS. The encoding: decode after encode (O1), encode after decode (O2) and the sample words (O3). An opcode byte is
taken apart once into its row and column of the opcode map, and a long-branch target into its two bytes. -/

namespace Sys2Proof

/-! ## An opcode byte is a row and a column of the map -/

section
variable {hi lo : Nat} (hhi : hi < 16) (hlo : lo < 16)
include hhi hlo

/-- The high nibble stands above the low one (30 R100). -/
theorem opN_toNat : (opN hi lo).toNat = hi * 16 + lo := by
  have happ : (opN hi lo).toNat = (BitVec.ofNat 4 hi).toNat <<< 4 ||| (BitVec.ofNat 4 lo).toNat :=
    BitVec.toNat_append _ _
  rw [happ, BitVec.toNat_ofNat, BitVec.toNat_ofNat, Nat.mod_eq_of_lt hhi, Nat.mod_eq_of_lt hlo,
    ← Nat.shiftLeft_add_eq_or_of_lt hlo, Nat.shiftLeft_eq]

theorem opN_div : (opN hi lo).toNat / 16 = hi := by
  rw [opN_toNat hhi hlo]
  omega

theorem opN_mod : (opN hi lo).toNat % 16 = lo := by
  rw [opN_toNat hhi hlo]
  omega

/-- Only rows 3, 7, C and F hold instructions with operand bytes (30 R103). -/
theorem operandCount_opN (hrow : hi ≠ 3 ∧ hi ≠ 7 ∧ hi ≠ 12 ∧ hi ≠ 15) : operandCount (opN hi lo) = 0 := by
  simp only [operandCount, opN_toNat hhi hlo]
  rw [if_neg (by omega), if_neg (by omega)]

end

/-- Every byte value is a cell of the map (30 R104). -/
theorem exists_opN (op : Byte) : ∃ hi lo, hi < 16 ∧ lo < 16 ∧ op = opN hi lo := by
  have hhi : op.toNat / 16 < 16 := by omega
  have hlo : op.toNat % 16 < 16 := by omega
  refine ⟨_, _, hhi, hlo, BitVec.eq_of_toNat_eq ?_⟩
  rw [opN_toNat hhi hlo]
  omega

/-- An instruction is at most three bytes long (30 R103). -/
theorem operandCount_le (op : Byte) : operandCount op ≤ 2 := by
  simp only [operandCount]
  split_ifs <;> decide

/-! ## A long-branch target is its high byte and its low byte (30 R102 (d)) -/

@[simp] theorem targetHigh_append (h l : Byte) : targetHigh (h ++ l) = h := BitVec.extractLsb'_append_eq_left

@[simp] theorem targetLow_append (h l : Byte) : targetLow (h ++ l) = l := BitVec.extractLsb'_append_eq_right

theorem exists_append_target (hl : Word) : ∃ h l : Byte, hl = h ++ l := by
  have hjoin : targetHigh hl ++ targetLow hl = hl :=
    (BitVec.extractLsb'_append_extractLsb'_eq_extractLsb' rfl).trans BitVec.extractLsb'_eq_self
  exact ⟨_, _, hjoin.symm⟩

/-! ## Decode after encode -/

/-- The decoder on an opcode outside the rows that hold instructions with operand bytes. -/
theorem decode_opN {hi lo : Nat} (hhi : hi < 16) (hlo : lo < 16) (hrow : hi ≠ 3 ∧ hi ≠ 7 ∧ hi ≠ 12 ∧ hi ≠ 15)
    (tail : List Byte) : decode (opN hi lo :: tail) = .ok (instrOf (opN hi lo) 0 0, tail) := by
  simp only [decode, operandCount_opN hhi hlo hrow]

/-- A register number needs its bound to fit the opcode's low nibble, a long-branch target is put together again from
its two bytes, and every other instruction has a fixed opcode, on which the decoder computes. -/
theorem decode_encode (i : Instr) (hwf : i.wellFormed = true) (rest : List Byte) :
    decode (encode i ++ rest) = .ok (i, rest) := by
  cases i with
  | inc n | dec n | lda n | str n | glo n | ghi n | plo n | phi n | sep n | sex n =>
    have hn : n < 16 := of_decide_eq_true hwf
    refine (decode_opN (by decide) hn (by decide) rest).trans ?_
    simp (disch := omega) only [instrOf, opN_div, opN_mod]
  | lbr hl | lbq hl | lbz hl | lbdf hl | lbnq hl | lbnz hl | lbnf hl =>
    obtain ⟨h, l, rfl⟩ := exists_append_target hl
    simp only [encode, targetHigh_append, targetLow_append]
    rfl
  | _ => rfl

/-- Settles O1. -/
theorem decodeAfterEncodeIsIdentity : Obligations.DecodeAfterEncodeIsIdentity := fun i rest hwf =>
  decode_encode i hwf rest

/-- Settles O3: each word is its instruction's encoding, the first with a byte after it. -/
theorem sampleWordsDecode : Obligations.SampleWordsDecode :=
  ⟨decode_encode (.ldi 0x05) rfl [0xA1], decode_encode (.plo 1) rfl [], decode_encode .ldn7 rfl [],
    decode_encode (.lda 15) rfl [], decode_encode (.bnz 0x03) rfl [], decode_encode (.lbr 0x1234) rfl [],
    decode_encode .lskp rfl [], decode_encode .out2 rfl [], decode_encode .inp0 rfl [], decode_encode .inp3 rfl [],
    decode_encode (.smbi 0xFF) rfl [], decode_encode .add rfl [], decode_encode .idl rfl []⟩

/-! ## Encode after decode -/

/-- `i` is well-formed, and its bytes are `op` and as many of the two bytes after it as `op` has operand bytes. -/
structure EncodesTo (i : Instr) (op b1 b2 : Byte) : Prop where
  wellFormed : i.wellFormed = true
  bytes : encode i = [op, b1, b2].take (1 + operandCount op)

theorem EncodesTo.length {i : Instr} {op b1 b2 : Byte} (h : EncodesTo i op b1 b2) :
    (encode i).length = 1 + operandCount op := by
  rw [h.bytes, List.length_take]
  exact Nat.min_eq_left (Nat.add_le_add_left (operandCount_le op) 1)

/-- Row C is the one with long branches: its two operand bytes pass through the 16-bit target. -/
theorem instrOf_rowC_encodesTo {lo : Nat} (hlo : lo < 16) (b1 b2 : Byte) :
    EncodesTo (instrOf (opN 12 lo) b1 b2) (opN 12 lo) b1 b2 := by
  have htarget : EncodesTo (instrOf (opN 12 lo) b1 b2) (opN 12 lo) (targetHigh (b1 ++ b2)) (targetLow (b1 ++ b2)) := by
    interval_cases lo <;> exact ⟨rfl, rfl⟩
  rwa [targetHigh_append, targetLow_append] at htarget

/-- A row of the map is one instruction with the column as its register number, or sixteen instructions of their own. -/
theorem instrOf_opN_encodesTo {hi lo : Nat} (hhi : hi < 16) (hlo : lo < 16) (b1 b2 : Byte) :
    EncodesTo (instrOf (opN hi lo) b1 b2) (opN hi lo) b1 b2 := by
  match hi, hhi with
  | 1, hhi | 2, hhi | 4, hhi | 5, hhi | 8, hhi | 9, hhi | 10, hhi | 11, hhi | 13, hhi | 14, hhi =>
    simp only [instrOf, opN_div hhi hlo, opN_mod hhi hlo]
    refine ⟨decide_eq_true hlo, ?_⟩
    rw [operandCount_opN hhi hlo (by decide)]
    rfl
  | 0, _ | 3, _ | 6, _ | 7, _ | 15, _ => interval_cases lo <;> exact ⟨rfl, rfl⟩
  | 12, _ => exact instrOf_rowC_encodesTo hlo b1 b2
  | _ + 16, hhi => omega

/-- Settles O2, cell by cell of the map. -/
theorem encodeAfterDecodeIsIdentity : Obligations.EncodeAfterDecodeIsIdentity := by
  intro op b1 b2
  obtain ⟨hi, lo, hhi, hlo, rfl⟩ := exists_opN op
  have h := instrOf_opN_encodesTo hhi hlo b1 b2
  exact ⟨h.wellFormed, h.bytes, h.length⟩

end Sys2Proof
end

section
/-! PROOFS. Every step answers a next state (O6), and how answers follow one another: the layer that the statements
about runs of machine cycles and of pulses use. -/

namespace Sys2Proof.Machine

/-! ## Answers in sequence -/

theorem andThen_assoc (o : Result) (f g : State → Result) :
    andThen (andThen o f) g = andThen o fun u => andThen (f u) g := by
  cases o <;> rfl

theorem andThen_next_right (o : Result) : andThen o .next = o := by
  cases o <;> rfl

/-- What the second part makes of every answer of the first, the sequence makes. -/
theorem Completes.andThen {o : Result} {P Q : State → Prop} {f : State → Result} (ho : Completes o P)
    (hf : ∀ u, P u → Completes (f u) Q) : Completes (andThen o f) Q := by
  obtain ⟨u, rfl, hu⟩ := ho
  exact hf u hu

theorem Completes.mono {o : Result} {P Q : State → Prop} (ho : Completes o P) (h : ∀ t, P t → Q t) : Completes o Q := by
  obtain ⟨t, ht, hp⟩ := ho
  exact ⟨t, ht, h t hp⟩

/-- A sequence whose parts answer answers. -/
theorem exists_andThen_next {o : Result} {f : State → Result} (ho : ∃ u, o = .next u) (hf : ∀ u, ∃ t, f u = .next t) :
    ∃ t, andThen o f = .next t := by
  obtain ⟨u, rfl⟩ := ho
  exact hf u

/-! ## The machine cycle and the step answer -/

/-- No instruction stops the execute cycle (40 R128, 60 R300). -/
theorem executeCycle_next (s : State) : ∃ t, s.executeCycle = .next t := by
  unfold State.executeCycle
  split_ifs
  · exact ⟨_, rfl⟩
  · exact exists_andThen_next (exec_next _ s) fun u => ⟨_, rfl⟩
  · exact ⟨_, rfl⟩

theorem cpuStep_next (s : State) : ∃ t, s.cpuStep = .next t := by
  unfold State.cpuStep
  cases s.stepper.cycle with
  | execute => exact executeCycle_next s
  | fetch | dma | interrupt => exact ⟨_, rfl⟩

theorem machineCycle_next (s : State) : ∃ t, s.machineCycle = .next t := cpuStep_next _

theorem boundary_next (s : State) : ∃ t, s.boundary = .next t := by
  unfold State.boundary
  dsimp only
  split
  · exact machineCycle_next _
  · exact ⟨_, rfl⟩

theorem finishInstruction_next (fuel : Nat) (s : State) : ∃ t, s.finishInstruction fuel = .next t := by
  induction fuel generalizing s with
  | zero => exact ⟨s, rfl⟩
  | succ fuel ih =>
    unfold State.finishInstruction
    split
    · exact exists_andThen_next (boundary_next s) ih
    · exact ⟨s, rfl⟩

/-- Settles O6: the first boundary answers, and so does the rest of the instruction. -/
theorem stepAlwaysAnswers : Obligations.StepAlwaysAnswers := fun s =>
  exists_andThen_next (boundary_next s) (finishInstruction_next 2)

end Sys2Proof.Machine
end

section
/-! PROOFS. Requests and arbitration: which request fills a slot (O42), which one an arbitration takes (O40), and how an
idle machine waits for one (O41). -/

namespace Sys2Proof.Machine

variable {s : State}

/-! ## A DMA request and its slot -/

theorem issueDma_dropped {d : Dir} {r : DmaRequest} (h : r.count = 0 ∨ s.stepper.slot d ≠ none) :
    s.issueDma d r = s := by
  rcases issueDma_cases s d r with ⟨he, -⟩ | ⟨hcount, hslot, -⟩
  · exact he
  · exact absurd h (by simp [hslot]; omega)

theorem issueDma_fills {d : Dir} {r : DmaRequest} (hr : r.count ≠ 0) (hs : s.stepper.slot d = none) :
    s.issueDma d r = { s with stepper := s.stepper.setSlot d (some r) } := by
  rcases issueDma_cases s d r with ⟨-, h⟩ | ⟨-, -, he⟩
  · exact absurd h (by simp [hr, hs])
  · exact he

/-- Settles O42: the two outcomes of a request, for each direction's slot. -/
theorem dmaRequestFillsEmptySlot : Obligations.DmaRequestFillsEmptySlot := fun _ _ =>
  ⟨fun h => ⟨issueDma_dropped (.inl h), issueDma_dropped (.inl h)⟩,
    fun h => issueDma_dropped (d := .input) (.inr h), fun h => issueDma_dropped (d := .output) (.inr h),
    issueDma_fills (d := .input), issueDma_fills (d := .output)⟩

/-! ## Arbitration -/

/-- Settles O40: the pending requests leave one of the four outcomes of an arbitration. -/
theorem arbitrationOrder : Obligations.ArbitrationOrder := by
  intro s
  rcases arbitrate_cases s with ⟨r, hin, h⟩ | ⟨hin, r, hout, h⟩ | ⟨hin, hout, hint, h⟩ | ⟨hin, hout, hint, h⟩
  · simp [hin, h]
  · simp [hin, hout, h]
  · simp [hin, hout, hint, h]
  · simp [hin, hout, hint, h, State.goto]

@[simp] theorem arbitrate_idle (s : State) : s.arbitrate.stepper.idle = s.stepper.idle := (arbitrate_only s).2.1

theorem arbitrate_cycle_ne_execute (s : State) : s.arbitrate.stepper.cycle ≠ .execute := (arbitrate_only s).2.2

/-- An arbitration does not touch the progress of the instruction (40 R131). -/
theorem arbitrate_progress (s : State) :
    s.arbitrate.stepper.execLeft = s.stepper.execLeft ∧ s.arbitrate.stepper.first = s.stepper.first := by
  rcases arbitrate_cases s with ⟨r, -, h⟩ | ⟨-, r, -, h⟩ | ⟨-, -, -, h⟩ | ⟨-, -, -, h⟩ <;> rw [h] <;> exact ⟨rfl, rfl⟩

/-- An arbitration that starts no burst leaves an empty queue empty (40 R133). -/
theorem arbitrate_queue_nil (hq : s.stepper.queue = []) (hc : s.arbitrate.stepper.cycle ≠ .dma) :
    s.arbitrate.stepper.queue = [] := by
  rcases arbitrate_cases s with ⟨r, -, h⟩ | ⟨-, r, -, h⟩ | ⟨-, -, -, h⟩ | ⟨-, -, -, h⟩ <;> rw [h] at hc ⊢
  · exact absurd rfl hc
  · exact absurd rfl hc
  · exact hq
  · exact hq

/-! ## Idle -/

/-- A DMA or an interrupt request is pending. -/
def Stepper.Pending (t : Stepper) : Prop := t.slotIn ≠ none ∨ t.slotOut ≠ none ∨ t.intPending = true

theorem idleCycle_of_pending (h : s.stepper.Pending) :
    s.idleCycle = ({ s with stepper := { s.stepper with idle := false } } : State).arbitrate := by
  unfold State.idleCycle
  exact if_pos (by simpa [Stepper.Pending, Option.isSome_iff_ne_none, or_assoc] using h)

theorem idleCycle_of_not_pending (h : ¬ s.stepper.Pending) : s.idleCycle = s := by
  unfold State.idleCycle
  exact if_neg (by simpa [Stepper.Pending, Option.isSome_iff_ne_none, and_assoc] using h)

/-- An idle cycle changes the stepper alone (40 R130). -/
theorem idleCycle_only (s : State) : s.idleCycle = { s with stepper := s.idleCycle.stepper } := by
  by_cases h : s.stepper.Pending
  · rw [idleCycle_of_pending h, (arbitrate_only _).1]
  · rw [idleCycle_of_not_pending h]

/-- A pending request ends the idle state, and the arbitration leaves Execute (40 R130, R131). -/
theorem idleCycle_wakes (h : s.stepper.Pending) :
    s.idleCycle.stepper.idle = false ∧ s.idleCycle.stepper.cycle ≠ .execute := by
  rw [idleCycle_of_pending h]
  exact ⟨arbitrate_idle _, arbitrate_cycle_ne_execute _⟩

theorem cpuStep_idle (hc : s.stepper.cycle = .execute) (hi : s.stepper.idle = true) :
    s.cpuStep = .next s.idleCycle := by
  simp [State.cpuStep, State.executeCycle, hc, hi]

/-- Settles O41: an idle cycle with a request pending, and one with none. -/
theorem idleCycleWaitsForRequest : Obligations.IdleCycleWaitsForRequest := fun s =>
  ⟨idleCycle_of_pending, fun hin hout hint => idleCycle_of_not_pending (by simp [Stepper.Pending, hin, hout, hint]),
    fun hc hi => ⟨cpuStep_idle hc hi, idleCycle_only s, idleCycle_wakes⟩⟩

end Sys2Proof.Machine
end

section
/-! PROOFS. Fetch and execute: what the fetch cycle does (O7), that an action leaves the cycle state alone (O9), how
many machine cycles an instruction takes (O8), and that a step runs the decoded instruction (O4). -/

namespace Sys2Proof.Machine

variable {s : State}

/-! ## Fetch -/

theorem cpuStep_fetch (hc : s.stepper.cycle = .fetch) : s.cpuStep = .next (s.fetchCycle Config.idlAdvances) := by
  simp [State.cpuStep, hc]

/-- The registers after a fetch: R[P] alone may move (40 R126). -/
theorem fetchCycle_reg (s : State) (adv : Bool) (n : Nibble) : (s.fetchCycle adv).reg n =
    if n = s.cpu.p then (if s.memRead s.pc ≠ 0 ∨ adv then s.pc + 1 else s.pc) else s.reg n :=
  reg_setReg s s.cpu.p n _

/-- Settles O7: each part of the state in the equation of the fetch cycle. -/
theorem fetchReadsOpcodeAndAdvances : Obligations.FetchReadsOpcodeAndAdvances := by
  refine ⟨fun s hc => cpuStep_fetch hc, fun s adv => ⟨rfl, ?_, fun m hm => ?_, rfl, ?_⟩⟩
  · exact (fetchCycle_reg s adv _).trans (if_pos rfl)
  · exact (fetchCycle_reg s adv m).trans (if_neg hm)
  · exact (readFrame_afterRead s s.pc).withCpu _

/-! ## Execute -/

/-- Settles O9, by what an instruction can do to the machine (`exec_cases`). -/
theorem execLeavesCycleStateAlone : Obligations.ExecLeavesCycleStateAlone := fun _ _ _ => exec_sameCycle

/-- The state in which an execute cycle counts down: after the action where the cycle is the instruction's first, and as
it stands where it is not (40 R128). -/
def AfterAction (s u : State) : Prop := if s.stepper.first = true then exec s.operandInstr s = .next u else u = s

theorem AfterAction.sameCycle {u : State} (h : AfterAction s u) : SameCycle s u := by
  unfold AfterAction at h
  split at h
  · exact exec_sameCycle h
  · rw [h]
    exact ⟨rfl, rfl, rfl, rfl, rfl⟩

/-- The CPU step of an instruction in progress: the action where it is due, and then the count-down (40 R128). -/
theorem cpuStep_execute (hc : s.stepper.cycle = .execute) (hi : s.stepper.idle = false) :
    ∃ u, AfterAction s u ∧ s.cpuStep = .next u.finishExecute := by
  have hstep : s.cpuStep = s.executeCycle := by simp [State.cpuStep, hc]
  unfold AfterAction
  cases hf : s.stepper.first with
  | true =>
    obtain ⟨u, hu⟩ := exec_next s.operandInstr s
    exact ⟨u, hu, by rw [hstep]; simp [State.executeCycle, hi, hf, hu]⟩
  | false => exact ⟨s, rfl, by rw [hstep]; simp [State.executeCycle, hi, hf]⟩

theorem finishExecute_last (h : s.stepper.execLeft = 1) :
    s.finishExecute = ({ s with stepper := { s.stepper with first := false, execLeft := 0 } } : State).arbitrate := by
  rcases finishExecute_cases s with ⟨-, he⟩ | ⟨hle, -⟩
  · exact he
  · omega

theorem finishExecute_counts (h : s.stepper.execLeft = 2) :
    s.finishExecute = { s with stepper := { s.stepper with first := false, execLeft := 1 } } := by
  rcases finishExecute_cases s with ⟨hle, -⟩ | ⟨-, he⟩
  · omega
  · rw [he, h]

/-! ## Machine cycles of an instruction -/

/-- An opcode of row C takes two execute cycles (40 R126, 70 R410). -/
theorem execCycles_eq (op : Byte) : execCycles op = if 0xC0 ≤ op ∧ op ≤ 0xCF then 2 else 1 := by
  revert op; decide

/-- An instruction is in progress and needs `left` more execute cycles (10 R44). -/
def InProgress (left : Nat) (s : State) : Prop :=
  s.stepper.cycle = .execute ∧ s.stepper.idle = false ∧ s.stepper.execLeft = left

/-- The machine has left an instruction whose execute cycles have all run (40 R128, R129). -/
def InstructionDone (s : State) : Prop :=
  s.stepper.cycle ≠ .execute ∧ s.stepper.execLeft = 0 ∧ s.stepper.first = false

/-- What comes before the CPU step does not touch the progress of the instruction (40 R123). -/
theorem InProgress.beforeStep {left : Nat} {b : State} (h : InProgress left s) (hb : BeforeStep s b) :
    InProgress left b := by
  obtain ⟨hcycle, hleft, hidle, -⟩ := hb.sameCycle
  obtain ⟨hc, hi, hl⟩ := h
  exact ⟨hcycle.trans hc, hidle.trans hi, hleft.trans hl⟩

/-- The machine cycle that fetches an opcode other than 0x00 begins an instruction of that opcode's length. -/
theorem machineCycle_fetch (hc : s.stepper.cycle = .fetch) (hop : s.memRead s.pc ≠ 0) :
    Completes s.machineCycle (InProgress (execCycles (s.memRead s.pc))) := by
  have hb := machineCycle_beforeStep s
  obtain ⟨hcycle, -⟩ := hb.sameCycle
  have hop' : s.qOut.syncTick.memRead s.qOut.syncTick.pc = s.memRead s.pc := by rw [hb.pc, hb.memRead]
  refine ⟨_, cpuStep_fetch (hcycle.trans hc), ?_⟩
  rw [fetchCycle_eq, hop']
  exact ⟨rfl, decide_eq_false hop, rfl⟩

/-- The last machine cycle of an instruction. -/
theorem machineCycle_last (h : InProgress 1 s) : Completes s.machineCycle InstructionDone := by
  obtain ⟨hc, hi, hl⟩ := h.beforeStep (machineCycle_beforeStep s)
  obtain ⟨u, hu, hstep⟩ := cpuStep_execute hc hi
  obtain ⟨-, hleft, -⟩ := hu.sameCycle
  refine ⟨_, hstep, ?_⟩
  rw [finishExecute_last (hleft.trans hl)]
  exact ⟨arbitrate_cycle_ne_execute _, arbitrate_progress _⟩

/-- The first execute cycle of an instruction that takes two. -/
theorem machineCycle_counts (h : InProgress 2 s) : Completes s.machineCycle (InProgress 1) := by
  obtain ⟨hc, hi, hl⟩ := h.beforeStep (machineCycle_beforeStep s)
  obtain ⟨u, hu, hstep⟩ := cpuStep_execute hc hi
  obtain ⟨hcycle, hleft, hidle, -⟩ := hu.sameCycle
  refine ⟨_, hstep, ?_⟩
  rw [finishExecute_counts (hleft.trans hl)]
  exact ⟨hcycle.trans hc, hidle.trans hi, rfl⟩

/-- One more machine cycle at the end of a run. -/
theorem cycles_succ (n : Nat) (s : State) : s.cycles (n + 1) = andThen (s.cycles n) State.machineCycle := by
  induction n generalizing s with
  | zero => exact andThen_next_right _
  | succ n ih =>
    calc s.cycles (n + 2) = andThen s.machineCycle (State.cycles (n + 1)) := rfl
      _ = andThen s.machineCycle fun u => andThen (u.cycles n) State.machineCycle := by rw [funext ih]
      _ = andThen (s.cycles (n + 1)) State.machineCycle := (andThen_assoc _ _ _).symm

/-- What a machine cycle makes of every answer of a run, the run with that machine cycle makes. -/
theorem Completes.cycles_succ {n : Nat} {P Q : State → Prop} (h : Completes (s.cycles n) P)
    (hP : ∀ u, P u → Completes u.machineCycle Q) : Completes (s.cycles (n + 1)) Q := by
  rw [Machine.cycles_succ]
  exact h.andThen hP

/-- Settles O8: the machine cycles of an instruction, one after the other, and the two ways an execute cycle ends. -/
theorem instructionTakesTwoOrThreeCycles : Obligations.InstructionTakesTwoOrThreeCycles := by
  refine ⟨fun s hc hop => ?_, fun s hc hi => ?_⟩
  · have hrunning {k left : Nat} (h : Completes (s.cycles k) (InProgress left)) :
        Completes (s.cycles k) fun t => t.stepper.cycle = .execute ∧ t.stepper.idle = false :=
      h.mono fun t ⟨hct, hit, _⟩ => ⟨hct, hit⟩
    have h1 : Completes (s.cycles 1) (InProgress (execCycles (s.memRead s.pc))) :=
      Completes.cycles_succ (n := 0) ⟨s, rfl, rfl⟩ fun _ h => h ▸ machineCycle_fetch hc hop
    rw [execCycles_eq] at h1
    dsimp only
    split_ifs at h1 ⊢ with hrow
    · have h2 : Completes (s.cycles 2) (InProgress 1) := h1.cycles_succ fun _ => machineCycle_counts
      refine ⟨fun k hk0 hk => ?_, h2.cycles_succ fun _ => machineCycle_last⟩
      obtain rfl | rfl : k = 1 ∨ k = 2 := by omega
      · exact hrunning h1
      · exact hrunning h2
    · refine ⟨fun k hk0 hk => ?_, h1.cycles_succ fun _ => machineCycle_last⟩
      obtain rfl : k = 1 := by omega
      exact hrunning h1
  · obtain ⟨u, hu, hstep⟩ := cpuStep_execute hc hi
    obtain ⟨-, hleft, -⟩ := hu.sameCycle
    refine ⟨u, hu, fun hl => ?_, fun hl => ?_⟩
    · rw [hstep, finishExecute_last (hleft.trans hl)]
    · rw [hstep, finishExecute_counts (hleft.trans hl)]

/-! ## The step that fetches -/

/-- The instruction that a list of three bytes begins with is the one that its first byte selects (30 R101 to R104). -/
theorem decode_three (op b1 b2 : Byte) :
    decode [op, b1, b2] = .ok (instrOf op b1 b2, [op, b1, b2].drop (1 + operandCount op)) := by
  obtain ⟨hwf, henc, -⟩ := encodeAfterDecodeIsIdentity op b1 b2
  have hdec := decodeAfterEncodeIsIdentity _ ([op, b1, b2].drop (1 + operandCount op)) hwf
  rwa [henc, List.take_append_drop] at hdec

theorem boundary_run (hs : s.env.script = []) (hm : s.clock.mode = .run) : s.boundary = s.driveKeypad.machineCycle := by
  have hclock : s.driveKeypad.clock = s.clock := by rw [driveKeypad_beforeStep s]
  unfold State.boundary
  rw [hostTurn_nil hs]
  exact if_pos (by rw [hclock, hm])

/-- The execute cycle that follows a fetch runs the instruction which the fetched byte and the next two begin with. -/
theorem cpuStep_decoded {i : Instr} {op : Byte} {rest : List Byte} (hc : s.stepper.cycle = .execute)
    (hi : s.stepper.idle = false) (hf : s.stepper.first = true) (hop : packNibbles s.cpu.i s.cpu.n = op)
    (hdec : decode [op, s.memRead s.pc, (s.afterRead s.pc).memRead (s.pc + 1)] = .ok (i, rest)) :
    s.cpuStep = andThen (exec i s) fun t => .next t.finishExecute := by
  have hinstr : s.operandInstr = i := by
    subst hop
    rw [decode_three] at hdec
    cases hdec
    rfl
  simp [State.cpuStep, State.executeCycle, hc, hi, hf, hinstr]

theorem BeforeStep.cpu {s t : State} (h : BeforeStep s t) : t.cpu = { s.cpu with ef := t.cpu.ef } := by
  rw [h]

theorem BeforeStep.clock {s t : State} (h : BeforeStep s t) : t.clock = s.clock := by
  rw [h]

/-- With nothing scripted, the state in which the CPU steps differs from `s` as `BeforeStep` says. -/
theorem unscripted_beforeStep (s : State) : BeforeStep s s.driveKeypad.qOut.syncTick :=
  (driveKeypad_beforeStep s).trans (machineCycle_beforeStep _)

section
variable {b e : State} {adv : Bool} (hb : BeforeStep s b) (he : BeforeStep (b.fetchCycle adv) e)
include hb he

/-- In the execute cycle that follows the fetch of a byte, I and N hold it (40 R126). -/
theorem fetched_cpu : e.cpu = { s.cpu with
    r := e.cpu.r, i := highNibble (s.memRead s.pc), n := lowNibble (s.memRead s.pc), ef := e.cpu.ef } := by
  have hf : (b.fetchCycle adv).cpu = { b.cpu with
      r := (b.fetchCycle adv).cpu.r, i := highNibble (s.memRead s.pc), n := lowNibble (s.memRead s.pc) } := by
    rw [← hb.pc, ← hb.memRead]
    rfl
  rw [he.cpu, hf, hb.cpu]

/-- Where that byte is an opcode other than 0x00, R[P] is one past it (40 R126). -/
theorem fetched_reg (hop : s.memRead s.pc ≠ 0) (m : Nibble) :
    e.reg m = if m = s.cpu.p then s.pc + 1 else s.reg m := by
  have hp : b.cpu.p = s.cpu.p := by rw [hb.cpu]
  rw [he.reg, fetchCycle_reg, hp, hb.pc, hb.memRead, hb.reg, if_pos (.inl hop : _ ∨ adv = true)]

theorem fetched_mem : e.plat.mem = s.plat.mem := by
  rw [he.plat, fetchCycle_eq, afterRead_plat_mem, hb.plat]

end

theorem finishInstruction_mid (fuel : Nat) (hm : s.midInstruction = true) :
    s.finishInstruction (fuel + 1) = andThen s.boundary (State.finishInstruction fuel) :=
  if_pos hm

/-- Settles O4: the first boundary of the step is the fetch, and the second one the execute cycle. -/
theorem stepRunsDecodedInstruction : Obligations.StepRunsDecodedInstruction := by
  intro s i rest hs hm hc hop f e hdec _
  have hb := unscripted_beforeStep s
  have he : BeforeStep f e := unscripted_beforeStep f
  have hcpu := fetched_cpu hb he
  have hreg := fetched_reg hb he hop
  obtain ⟨hcycle, -⟩ := hb.sameCycle
  obtain ⟨hcycle', -, hidle', hfirst', -⟩ := he.sameCycle
  have hfetch : s.boundary = .next f := (boundary_run hs hm).trans (cpuStep_fetch (hcycle.trans hc))
  have hrun : f.clock.mode = .run := by rw [show f.clock = s.clock from hb.clock, hm]
  have hidle : f.stepper.idle = false := decide_eq_false (by rwa [hb.pc, hb.memRead])
  have hmid : f.midInstruction = true := by
    simp [State.midInstruction, hrun, hidle, show f.stepper.cycle = .execute from rfl]
  have hopcode : packNibbles e.cpu.i e.cpu.n = s.memRead s.pc := by
    rw [hcpu]
    exact packNibbles_opcode _
  refine ⟨?_, (hreg _).trans (if_pos (by rw [hcpu])), fun m hne => (hreg m).trans (if_neg hne), ?_, fetched_mem hb he⟩
  · have hexecute : f.boundary = e.cpuStep := boundary_run (boundary_script hs hfetch) hrun
    calc step s = andThen s.boundary (State.finishInstruction 2) := rfl
      _ = andThen e.cpuStep (State.finishInstruction 1) := by
        rw [hfetch, andThen_next, finishInstruction_mid 1 hmid, hexecute]
      _ = andThen (exec i e) fun t => State.finishInstruction 1 t.finishExecute := by
        rw [cpuStep_decoded hcycle' (hidle'.trans hidle) hfirst' hopcode hdec, andThen_assoc]
        rfl
  · rw [hcpu]

end Sys2Proof.Machine
end

section
/-! PROOFS. DMA: what a DMA cycle moves and calls (O43), and how a burst goes through its machine cycles (O44). A
transfer is described by direction and by callback first; a DMA cycle is that transfer, with an arbitration after the
last one. -/

namespace Sys2Proof.Machine

variable {s t : State} {d : Descriptor} {rest : List Descriptor}

/-! ## The callback of a transfer -/

theorem TransferOnly.cpu (h : TransferOnly s t) : t.cpu = s.cpu := by rw [h]

theorem TransferOnly.clock (h : TransferOnly s t) : t.clock = s.clock := by rw [h]

theorem TransferOnly.reg (h : TransferOnly s t) (n : Nibble) : t.reg n = s.reg n := by
  unfold State.reg
  rw [h.cpu]

/-- `s` with the requests that the transfer's callback issues, where it is the host's (40 R132, log 2). -/
def State.answered (s : State) (d : Descriptor) : State :=
  if d.cb = .host then (s.env.reactions.headD []).foldl State.request s else s

/-- What the host's callback makes of the stepper depends on the stepper, IE and the reactions alone. -/
theorem react_stepper_congr (hs : t.stepper = s.stepper) (hie : t.cpu.ie = s.cpu.ie)
    (hr : t.env.reactions = s.env.reactions) :
    t.react.stepper = ((s.env.reactions.headD []).foldl State.request s).stepper := by
  rw [react_stepper, hr]
  exact requests_congr _ hs hie

theorem supply_stepper (s : State) : s.supply.2.stepper = s.stepper := by rw [supply_eq]

theorem transferByte_stepper (s : State) (d : Descriptor) : (s.transferByte d).2.stepper = (s.answered d).stepper := by
  unfold State.transferByte State.answered
  cases d.cb with
  | null => rfl
  | host => exact (supply_stepper _).trans (react_stepper_congr rfl rfl rfl)
  | video => exact supply_stepper s

theorem deliver_stepper (d : Descriptor) (b : Byte) (hs : t.stepper = s.stepper) (hcpu : t.cpu.ie = s.cpu.ie)
    (henv : t.env = s.env) : (t.deliver d b).stepper = (s.answered d).stepper := by
  have hr : t.env.reactions = s.env.reactions := by rw [henv]
  unfold State.deliver State.answered
  cases d.cb with
  | null => exact hs
  | host => exact react_stepper_congr hs hcpu hr
  | video => dsimp only; rw [dmaOutByte_eq]; exact hs

/-- `s` with another queue (10 R48). -/
def State.withQueue (s : State) (q : List Descriptor) : State := { s with stepper := { s.stepper with queue := q } }

/-- The requests of a callback neither see nor change the queue. -/
theorem answered_withQueue (s : State) (d : Descriptor) (q : List Descriptor) :
    (s.withQueue q).answered d = (s.answered d).withQueue q := by
  unfold State.answered
  split
  · exact requests_queue _ s q
  · rfl

/-! ## What an outbound callback is handed -/

theorem deliver_null (s : State) (b : Byte) (hcb : d.cb = .null) : s.deliver d b = s := by
  unfold State.deliver
  rw [hcb]

/-- The host's callback is called with the context and the byte (40 R135). -/
theorem deliver_host (s : State) (b : Byte) (hcb : d.cb = .host) :
    (s.deliver d b).env.out = .dmaOut d.ctx b :: s.env.out ∧ (s.deliver d b).video = s.video := by
  unfold State.deliver
  rw [hcb]
  dsimp only
  rw [react_env, react_only]
  exact ⟨rfl, rfl⟩

/-- The video controller's callback hands the byte to the pixel sink (60 R327; log 17, log 22). -/
theorem deliver_video (s : State) (b : Byte) (hcb : d.cb = .video) :
    (s.deliver d b).env = { s.env with out := (s.deliver d b).env.out } ∧
    (s.deliver d b).env.out = (if s.plat.wiring.attached.pixel = true then
      .pixel b ((s.video.line : Int) - 64) (s.video.cursor % 8) d.ctx :: s.env.out else s.env.out) ∧
    (s.deliver d b).video = { s.video with cursor := (s.video.cursor + 1) % 1024 } := by
  unfold State.deliver State.dmaOutByte
  rw [hcb]
  dsimp only
  rw [emit_eq]
  exact ⟨rfl, rfl, rfl⟩

/-! ## What an inbound callback supplies -/

theorem transferByte_null (s : State) (hcb : d.cb = .null) : s.transferByte d = (0, s) := by
  unfold State.transferByte
  rw [hcb]

/-- The host's callback is called with the context, and supplies the next byte of the tape or a free one (40 R134,
log 12). -/
theorem transferByte_host (s : State) (hcb : d.cb = .host) :
    (s.transferByte d).2.env.out = .dmaIn d.ctx :: s.env.out ∧
    (∀ b bs, s.env.tape = b :: bs → (s.transferByte d).1 = b ∧ (s.transferByte d).2.env.tape = bs) ∧
    (s.env.tape = [] → (s.transferByte d).1 = Config.freeByte s.env.draws ∧
      (s.transferByte d).2.env.draws = s.env.draws + 1) := by
  unfold State.transferByte
  rw [hcb]
  dsimp only
  rw [supply_eq, react_env, emit_eq]
  exact ⟨rfl, fun b bs h => by simp [h], fun h => by simp [h]⟩

theorem transferByte_requestsOnly (s : State) (d : Descriptor) : RequestsOnly s (s.transferByte d).2 := by
  unfold State.transferByte
  cases d.cb with
  | null => exact .refl s
  | host => exact ((emit_only _ _ _).trans (react_only _)).trans (supply_only _)
  | video => exact supply_only s

/-! ## The transfer -/

theorem transfer_output (s : State) (hd : d.dir = .output) : s.transfer d =
    ((s.afterRead (s.reg 0)).setReg 0 (s.reg 0 + 1)).deliver d (s.memRead (s.reg 0)) := by
  unfold State.transfer
  rw [hd]
  rfl

theorem transfer_input (s : State) (hd : d.dir = .input) : s.transfer d =
    ((s.transferByte d).2.memWrite (s.reg 0) (s.transferByte d).1).setReg 0 (s.reg 0 + 1) := by
  unfold State.transfer
  rw [hd]
  dsimp only
  rw [(transferByte_only s d).reg]
  rfl

/-- Of the CPU registers a transfer increments R[0] alone (40 R134, R135). -/
theorem transfer_cpu (s : State) (d : Descriptor) : (s.transfer d).cpu = (s.setReg 0 (s.reg 0 + 1)).cpu := by
  cases hd : d.dir with
  | input => rw [transfer_input s hd, setReg_cpu, memWrite_cpu, (transferByte_only s d).cpu, setReg_cpu]
  | output => rw [transfer_output s hd, (deliver_only _ d _).cpu]; rfl

theorem transfer_clock (s : State) (d : Descriptor) : (s.transfer d).clock = s.clock := by
  cases hd : d.dir with
  | input => rw [transfer_input s hd, setReg_clock, memWrite_clock, (transferByte_only s d).clock]
  | output => rw [transfer_output s hd, (deliver_only _ d _).clock]; rfl

theorem transfer_stepper (s : State) (d : Descriptor) : (s.transfer d).stepper = (s.answered d).stepper := by
  cases hd : d.dir with
  | input => rw [transfer_input s hd, setReg_stepper, memWrite_stepper, transferByte_stepper]
  | output => rw [transfer_output s hd]; exact deliver_stepper d _ rfl rfl rfl

theorem transfer_null_host_side (s : State) (hcb : d.cb = .null) :
    (s.transfer d).env = s.env ∧ (s.transfer d).video = s.video := by
  cases hd : d.dir with
  | input =>
    rw [transfer_input s hd, transferByte_null s hcb]
    exact ⟨memWrite_env _ _ _, memWrite_video _ _ _⟩
  | output =>
    rw [transfer_output s hd, deliver_null _ _ hcb]
    exact ⟨rfl, rfl⟩

/-! ## The DMA cycle -/

/-- `s` without the front of its queue, after the transfer that the front describes. -/
def State.moved (s : State) (d : Descriptor) (rest : List Descriptor) : State :=
  (s.withQueue rest).transfer d

theorem moved_stepper (s : State) (d : Descriptor) (rest : List Descriptor) :
    (s.moved d rest).stepper = { (s.answered d).stepper with queue := rest } := by
  rw [State.moved, transfer_stepper, answered_withQueue]
  rfl

theorem moved_queue (s : State) (d : Descriptor) (rest : List Descriptor) : (s.moved d rest).stepper.queue = rest := by
  rw [moved_stepper]

/-- A DMA cycle is one transfer, and the arbitration after the last descriptor (40 R134 to R136). -/
theorem dmaCycle_eq (hq : s.stepper.queue = d :: rest) :
    s.dmaCycle = if rest = [] then (s.moved d rest).arbitrate else s.moved d rest := by
  have hcycle : s.dmaCycle =
      if (s.moved d rest).stepper.queue = [] then (s.moved d rest).arbitrate else s.moved d rest := by
    unfold State.dmaCycle
    rw [hq]
    rfl
  rw [hcycle, moved_queue]

/-- The arbitration changes the stepper alone: the rest of a DMA cycle is the transfer. -/
theorem dmaCycle_only (hq : s.stepper.queue = d :: rest) :
    s.dmaCycle = { s.moved d rest with stepper := s.dmaCycle.stepper } := by
  rw [dmaCycle_eq hq]
  split
  · rw [(arbitrate_only _).1]
  · rfl

section
variable (hq : s.stepper.queue = d :: rest)
include hq

theorem dmaCycle_cpu : s.dmaCycle.cpu = (s.setReg 0 (s.reg 0 + 1)).cpu := by
  rw [dmaCycle_only hq]
  exact transfer_cpu _ d

theorem dmaCycle_reg (n : Nibble) : s.dmaCycle.reg n = if n = 0 then s.reg 0 + 1 else s.reg n := by
  have h : s.dmaCycle.reg n = (s.setReg 0 (s.reg 0 + 1)).reg n := by
    unfold State.reg
    rw [dmaCycle_cpu hq]
    rfl
  rw [h, reg_setReg]

theorem dmaCycle_clock : s.dmaCycle.clock = s.clock := by
  rw [dmaCycle_only hq]
  exact transfer_clock _ d

theorem dmaCycle_env : s.dmaCycle.env = (s.moved d rest).env := by rw [dmaCycle_only hq]

theorem dmaCycle_video : s.dmaCycle.video = (s.moved d rest).video := by rw [dmaCycle_only hq]

theorem dmaCycle_plat : s.dmaCycle.plat = (s.moved d rest).plat := by rw [dmaCycle_only hq]

/-- A DMA cycle does not touch the progress of the instruction and the idle state. -/
theorem dmaCycle_keeps :
    s.dmaCycle.stepper.execLeft = s.stepper.execLeft ∧ s.dmaCycle.stepper.idle = s.stepper.idle := by
  obtain ⟨-, hleft, hidle, -⟩ := transfer_sameCycle (s.withQueue rest) d
  rw [dmaCycle_eq hq]
  split
  · exact ⟨(arbitrate_progress _).1.trans hleft, (arbitrate_idle _).trans hidle⟩
  · exact ⟨hleft, hidle⟩

/-- With descriptors left the burst goes on (40 R136). -/
theorem dmaCycle_continues (hrest : rest ≠ []) :
    s.dmaCycle.stepper.cycle = s.stepper.cycle ∧ s.dmaCycle.stepper.queue = rest := by
  obtain ⟨hcycle, -⟩ := transfer_sameCycle (s.withQueue rest) d
  rw [dmaCycle_eq hq, if_neg hrest]
  exact ⟨hcycle, moved_queue s d rest⟩

/-- An outbound cycle does to the platform what its read does (40 R135). -/
theorem dmaCycle_readFrame (hd : d.dir = .output) :
    ReadFrame [s.reg 0] s { s.dmaCycle with stepper := s.stepper, video := s.video, env := s.env } := by
  have hplat : s.dmaCycle.plat = (s.afterRead (s.reg 0)).plat := by
    rw [dmaCycle_plat hq, State.moved, transfer_output _ hd, (deliver_only _ d _).plat]
    rfl
  dsimp only
  rw [hplat, dmaCycle_clock hq]
  exact (readFrame_afterRead s (s.reg 0)).withCpu s.dmaCycle.cpu

/-- An inbound cycle does to the platform what its write does (40 R134). -/
theorem dmaCycle_writeFrame (hd : d.dir = .input) :
    WriteFrame (s.reg 0) ((s.withQueue rest).transferByte d).1 s
      { s.dmaCycle with stepper := s.stepper, video := s.video, env := s.env } := by
  let b := (s.withQueue rest).transferByte d
  have honly : TransferOnly _ b.2 := transferByte_only (s.withQueue rest) d
  have hplat : s.dmaCycle.plat = (b.2.memWrite (s.reg 0) b.1).plat := by
    rw [dmaCycle_plat hq, State.moved, transfer_input _ hd]
    rfl
  have hclock : s.dmaCycle.clock = (b.2.memWrite (s.reg 0) b.1).clock := by
    rw [dmaCycle_clock hq, memWrite_clock, honly.clock]
    rfl
  dsimp only
  rw [hplat, hclock]
  exact ((writeFrame_memWrite b.2 (s.reg 0) b.1).ofPlat (s' := s) honly.plat honly.clock).withCpu s.dmaCycle.cpu

theorem dmaCycle_null (hcb : d.cb = .null) : s.dmaCycle.env = s.env ∧ s.dmaCycle.video = s.video := by
  rw [dmaCycle_env hq, dmaCycle_video hq]
  exact transfer_null_host_side _ hcb

end

/-- Settles O43: the CPU registers and the stepper, then each direction with its callbacks. -/
theorem dmaCycleMovesOneByte : Obligations.DmaCycleMovesOneByte := by
  intro s d rest hq t
  have hcpu : t.cpu = { s.cpu with r := t.cpu.r } := by
    rw [show t.cpu = _ from dmaCycle_cpu hq]
    rfl
  have hreg := dmaCycle_reg hq
  obtain ⟨hleft, hidle⟩ := dmaCycle_keeps hq
  have henv : t.env = _ := dmaCycle_env hq
  have hvideo : t.video = _ := dmaCycle_video hq
  refine ⟨fun hc => by simp [State.cpuStep, hc, t], hcpu, hreg 0, fun m hm => (hreg m).trans (if_neg hm), hleft, hidle,
    dmaCycle_continues hq, ⟨s.moved d rest, moved_stepper s d rest, dmaCycle_eq hq⟩,
    fun hd => ⟨dmaCycle_readFrame hq hd, ?_, ?_⟩, dmaCycle_null hq,
    fun hd => ⟨?_, _, dmaCycle_writeFrame hq hd, ?_, ?_⟩⟩
  · intro hcb
    rw [henv, hvideo, State.moved, transfer_output _ hd]
    exact deliver_host _ _ hcb
  · intro hcb
    rw [henv, hvideo, State.moved, transfer_output _ hd]
    exact deliver_video _ _ hcb
  · rw [hvideo, State.moved, transfer_input _ hd, setReg_video, memWrite_video, transferByte_requestsOnly]
    rfl
  · intro hcb
    rw [transferByte_null _ hcb]
  · intro hcb
    rw [henv, State.moved, transfer_input _ hd, setReg_env, memWrite_env]
    exact transferByte_host _ hcb

/-! ## Calls of the transfer callbacks -/

theorem qOut_transferCalls (s : State) : transferCalls s.qOut.env.out = transferCalls s.env.out := by
  unfold State.qOut
  split
  · rw [react_env, emit_eq]
    simp [transferCalls]
  · rfl

theorem ite_env {b : Bool} {u : State} (h : u.env = s.env) : (if b = true then u else s).env = s.env := by
  split
  · exact h
  · rfl

/-- Of the calls to the host, `Sync()` makes the present call alone (60 R326). -/
theorem sync_transferCalls (s : State) : transferCalls s.sync.env.out = transferCalls s.env.out := by
  unfold State.sync
  extract_lets v s1 s2 s3 s4
  have h1 : s1.env = s.env := ite_env rfl
  have h2 : s2.env = s1.env := ite_env (request_env s1 .interrupt)
  have h3 : s3.env = s2.env := ite_env (request_env s2 (.dma .output _))
  rw [← h1, ← h2, ← h3]
  change transferCalls (if _ then s3.present else s3).env.out = _
  rw [State.present, emit_eq]
  split_ifs <;> simp [transferCalls]

theorem syncTick_transferCalls (s : State) : transferCalls s.syncTick.env.out = transferCalls s.env.out := by
  unfold State.syncTick
  split
  · exact sync_transferCalls s
  · rfl

/-- A transfer with the host's callback calls it once (40 R134, R135). -/
theorem dmaCycle_transferCalls (hq : s.stepper.queue = d :: rest) (hcb : d.cb = .host) :
    transferCalls s.dmaCycle.env.out = transferCalls s.env.out + 1 := by
  rw [dmaCycle_env hq, State.moved]
  cases hd : d.dir with
  | input =>
    rw [transfer_input _ hd, setReg_env, memWrite_env, (transferByte_host _ hcb).1]
    simp [transferCalls, State.withQueue]
  | output =>
    rw [transfer_output _ hd, (deliver_host _ _ hcb).1]
    simp [transferCalls, State.withQueue]

/-! ## The burst -/

/-- Between `s` and `t`, `k` of the bytes that `s` has queued went through R[0], each with its call where the
descriptors are the host's (40 R137). -/
def BytesMoved (k : Nat) (s t : State) : Prop :=
  t.reg 0 = s.reg 0 + BitVec.ofNat 16 k ∧
  ((∀ d ∈ s.stepper.queue, d.cb = .host) → transferCalls t.env.out = transferCalls s.env.out + k)

/-- A machine cycle in the DMA state is a DMA cycle, of a state with the same queue, R[0] and calls. -/
theorem machineCycle_dma (hc : s.stepper.cycle = .dma) : ∃ b : State, s.machineCycle = .next b.dmaCycle ∧
    b.stepper.cycle = .dma ∧ b.stepper.queue = s.stepper.queue ∧ b.reg 0 = s.reg 0 ∧
    transferCalls b.env.out = transferCalls s.env.out := by
  have hb := machineCycle_beforeStep s
  obtain ⟨hcycle, -, -, -, hqueue⟩ := hb.sameCycle
  refine ⟨_, ?_, hcycle.trans hc, hqueue, hb.reg 0, (syncTick_transferCalls _).trans (qOut_transferCalls s)⟩
  unfold State.machineCycle State.cpuStep
  rw [hcycle, hc]

/-- One more byte. -/
theorem BytesMoved.succ {k : Nat} {u b : State} (h : BytesMoved k s u) (hd : d ∈ s.stepper.queue)
    (hq : b.stepper.queue = d :: rest) (hreg : b.reg 0 = u.reg 0)
    (hcalls : transferCalls b.env.out = transferCalls u.env.out) : BytesMoved (k + 1) s b.dmaCycle := by
  obtain ⟨hreg', hcalls'⟩ := h
  refine ⟨?_, fun hhost => ?_⟩
  · rw [dmaCycle_reg hq, if_pos rfl, hreg, hreg', BitVec.ofNat_add, ← BitVec.add_assoc]
    rfl
  · rw [dmaCycle_transferCalls hq (hhost d hd), hcalls, hcalls' hhost, Nat.add_assoc]

/-- Before its last byte the burst goes on, one descriptor for each machine cycle (40 R136, R137). -/
theorem cycles_dma (hc : s.stepper.cycle = .dma) (k : Nat) (hk : k < s.stepper.queue.length) :
    Completes (s.cycles k) fun t =>
      t.stepper.cycle = .dma ∧ t.stepper.queue = s.stepper.queue.drop k ∧ BytesMoved k s t := by
  induction k with
  | zero => exact ⟨s, rfl, hc, rfl, (BitVec.add_zero _).symm, fun _ => rfl⟩
  | succ k ih =>
    have hk' : k < s.stepper.queue.length := by omega
    refine (ih hk').cycles_succ fun u ⟨hcu, hqu, hmoved⟩ => ?_
    obtain ⟨b, hnext, hcb, hqb, hreg, hcalls⟩ := machineCycle_dma hcu
    rw [hqu, List.drop_eq_getElem_cons hk'] at hqb
    have hmore : s.stepper.queue.drop (k + 1) ≠ [] := List.ne_nil_of_length_pos (by simp; omega)
    obtain ⟨hcycle, hqueue⟩ := dmaCycle_continues hqb hmore
    exact ⟨_, hnext, hcycle.trans hcb, hqueue, hmoved.succ (List.getElem_mem hk') hqb hreg hcalls⟩

/-- The last byte of a burst ends in an arbitration (40 R136). -/
theorem dmaCycle_last (hq : s.stepper.queue = [d]) :
    s.dmaCycle.stepper.cycle ≠ .execute ∧ (s.dmaCycle.stepper.cycle ≠ .dma → s.dmaCycle.stepper.queue = []) := by
  rw [dmaCycle_eq hq, if_pos rfl]
  exact ⟨arbitrate_cycle_ne_execute _, arbitrate_queue_nil (moved_queue s d [])⟩

/-- Settles O44: the bytes before the last, and the last one. -/
theorem burstTakesOneCyclePerByte : Obligations.BurstTakesOneCyclePerByte := by
  intro n s hc hlen
  refine ⟨fun k hk => (cycles_dma hc k (by omega)).mono fun t ⟨hct, hqt, hreg, _⟩ => ⟨hct, hqt, hreg⟩, ?_⟩
  have hn : n < s.stepper.queue.length := by omega
  refine (cycles_dma hc n hn).cycles_succ fun u ⟨hcu, hqu, hmoved⟩ => ?_
  obtain ⟨b, hnext, -, hqb, hreg, hcalls⟩ := machineCycle_dma hcu
  rw [hqu, List.drop_eq_getElem_cons hn, List.drop_eq_nil_of_le hlen.le] at hqb
  obtain ⟨hreg', hcalls'⟩ := hmoved.succ (List.getElem_mem hn) hqb hreg hcalls
  obtain ⟨hcycle, hqueue⟩ := dmaCycle_last hqb
  refine ⟨_, hnext, hreg', hcycle, hqueue, fun d ctx hhost => hcalls' fun x hx => ?_⟩
  rw [hhost] at hx
  rw [List.eq_of_mem_replicate hx]

end Sys2Proof.Machine
end

section
/-! PROOFS. Clock pulses (O52) and the time that `step(now)` counts (O53). The pulses that a call runs do not see the
accumulator that it charges for them, so the call is a run of clock pulses with the time written afterwards. -/

namespace Sys2Proof.Machine

variable {s : State}

/-! ## Pulses between two machine cycles -/

/-- Short of the eighth, pulses only count (40 R122). -/
theorem clockPulses_counts (n : Nat) (hn : s.clock.pulsePhase + n < 8) :
    s.clockPulses n = .next { s with clock := { s.clock with pulsePhase := s.clock.pulsePhase + n } } := by
  induction n generalizing s with
  | zero => rfl
  | succ n ih =>
    have hphase : (s.clock.pulsePhase + 1) % Config.pulsesPerCycle = s.clock.pulsePhase + 1 :=
      Nat.mod_eq_of_lt (show _ < 8 by omega)
    rcases clockPulse_cases s with ⟨hzero, -⟩ | ⟨-, hpulse⟩
    · omega
    · rw [hphase] at hpulse
      rw [State.clockPulses, hpulse, andThen_next, ih (by dsimp only; omega)]
      dsimp only
      rw [show s.clock.pulsePhase + 1 + n = s.clock.pulsePhase + (n + 1) by omega]

theorem clockPulse_eighth (h : s.clock.pulsePhase = 7) :
    s.clockPulse = ({ s with clock := { s.clock with pulsePhase := 0 } } : State).machineCycle := by
  rcases clockPulse_cases s with ⟨-, hpulse⟩ | ⟨hne, -⟩
  · exact hpulse
  · exact absurd (by rw [h]; rfl) hne

theorem clockPulses_add (m n : Nat) (s : State) :
    s.clockPulses (m + n) = andThen (s.clockPulses m) (State.clockPulses n) := by
  induction m generalizing s with
  | zero => rw [Nat.zero_add]; rfl
  | succ m ih => rw [Nat.succ_add, State.clockPulses, State.clockPulses, funext ih, andThen_assoc]

/-- Settles O52: seven pulses count the phase up to 7, and the eighth brings it back to 0. -/
theorem eightPulsesAreOneMachineCycle : Obligations.EightPulsesAreOneMachineCycle := by
  intro s hs
  have h7 : s.clockPulses 7 = .next { s with clock := { s.clock with pulsePhase := 7 } } := by
    rw [clockPulses_counts 7 (by omega), hs]
  refine ⟨h7, ?_⟩
  calc s.clockPulses 8 = andThen (s.clockPulses 7) (State.clockPulses 1) := clockPulses_add 7 1 s
    _ = ({ s with clock := { s.clock with pulsePhase := 7 } } : State).clockPulse := by
      rw [h7, andThen_next]
      exact andThen_next_right _
    _ = ({ s with clock := { s.clock with pulsePhase := 0 } } : State).machineCycle := clockPulse_eighth rfl
    _ = s.machineCycle := by rw [← hs]

/-! ## Any number of pulses -/

/-- A pulse answers, and of the clock it moves the phase alone (40 R122). -/
theorem clockPulse_completes (s : State) : Completes s.clockPulse fun t =>
    t.clock = { s.clock with pulsePhase := (s.clock.pulsePhase + 1) % 8 } := by
  rcases clockPulse_cases s with ⟨hzero, hpulse⟩ | ⟨-, hpulse⟩
  · obtain ⟨t, ht⟩ := machineCycle_next { s with clock := { s.clock with pulsePhase := 0 } }
    refine ⟨t, hpulse.trans ht, ?_⟩
    have hphase : (s.clock.pulsePhase + 1) % 8 = 0 := hzero
    dsimp only
    rw [machineCycle_clock ht, hphase]
  · exact ⟨_, hpulse, rfl⟩

/-- From a phase within its range, `n` pulses move the phase on by `n` modulo 8. -/
theorem clockPulses_completes (n : Nat) (s : State) : Completes (s.clockPulses n) fun t =>
    t.clock = { s.clock with pulsePhase := t.clock.pulsePhase } ∧
    (s.clock.pulsePhase < 8 → t.clock.pulsePhase = (s.clock.pulsePhase + n) % 8) := by
  induction n generalizing s with
  | zero => exact ⟨s, rfl, rfl, fun h => (Nat.mod_eq_of_lt h).symm⟩
  | succ n ih =>
    refine (clockPulse_completes s).andThen fun u hu => (ih u).mono fun t ⟨hclock, hphase⟩ => ?_
    rw [hu] at hclock hphase
    refine ⟨hclock, fun _ => ?_⟩
    rw [hphase (Nat.mod_lt _ (by decide)), Nat.mod_add_mod, Nat.add_right_comm, Nat.add_assoc]

/-! ## The accumulator -/

/-- `s` with another accumulator and another time of the last call. -/
def State.withTime (s : State) (last acc : Rat) : State :=
  { s with clock := { s.clock with lastTime := last, acc := acc } }

theorem machineCycle_withTime (s : State) (last acc : Rat) :
    (s.withTime last acc).machineCycle = mapNext (State.withTime · last acc) s.machineCycle := by
  obtain ⟨t, ht⟩ := machineCycle_next s
  have hclock : t.withClock (s.withTime last acc).clock = t.withTime last acc := by
    unfold State.withTime
    rw [machineCycle_clock ht]
    rfl
  calc (s.withTime last acc).machineCycle = mapNext (State.withClock · (s.withTime last acc).clock) s.machineCycle :=
        machineCycle_withClock s _
    _ = mapNext (State.withTime · last acc) s.machineCycle := by rw [ht, mapNext, mapNext, hclock]

/-- A pulse does not see the accumulator and the time. -/
theorem clockPulse_withTime (s : State) (last acc : Rat) :
    (s.withTime last acc).clockPulse = mapNext (State.withTime · last acc) s.clockPulse := by
  unfold State.clockPulse
  change (if (s.clock.pulsePhase + 1) % Config.pulsesPerCycle = 0 then _ else _) = mapNext _ (if _ then _ else _)
  split
  · exact machineCycle_withTime { s with clock := { s.clock with
      pulsePhase := (s.clock.pulsePhase + 1) % Config.pulsesPerCycle } } last acc
  · rfl

/-- The pulses of a call are clock pulses, for each of which the accumulator is charged one pulse time (40 R120). -/
theorem pulses_withTime (n : Nat) (s : State) (last acc : Rat) : (s.withTime last acc).pulses n =
    mapNext (State.withTime · last (acc - n / s.clock.hz.val)) (s.clockPulses n) := by
  induction n generalizing s acc with
  | zero => simp [State.pulses, State.clockPulses, mapNext]
  | succ n ih =>
    obtain ⟨t, ht, hclock⟩ := clockPulse_completes s
    have hhz : t.clock.hz = s.clock.hz := by rw [hclock]
    have hcharge : acc - 1 / s.clock.hz.val - n / s.clock.hz.val = acc - (n + 1 : Nat) / s.clock.hz.val := by
      push_cast
      ring
    calc (s.withTime last acc).pulses (n + 1)
        = andThen (s.withTime last (acc - 1 / s.clock.hz.val)).clockPulse (State.pulses n) := rfl
      _ = (t.withTime last (acc - 1 / s.clock.hz.val)).pulses n := by rw [clockPulse_withTime, ht]; rfl
      _ = mapNext (State.withTime · last (acc - (n + 1 : Nat) / s.clock.hz.val)) (t.clockPulses n) := by
        rw [ih, hhz, hcharge]
      _ = _ := by rw [State.clockPulses, ht, andThen_next]

/-- The whole pulses of an accumulator that is not negative leave less than one pulse time (40 R120). -/
theorem pulsesDue_remainder (c : Clock) (hacc : 0 ≤ c.acc) :
    0 ≤ c.acc - c.pulsesDue / c.hz.val ∧ c.acc - c.pulsesDue / c.hz.val < 1 / c.hz.val := by
  have hhz : 0 < c.hz.val := c.hz.property
  have hdue : (c.pulsesDue : Rat) = ⌊c.acc * c.hz.val⌋ := by
    have hnonneg : 0 ≤ ⌊c.acc * c.hz.val⌋ := Int.floor_nonneg.2 (mul_nonneg hacc hhz.le)
    exact_mod_cast Int.toNat_of_nonneg hnonneg
  have hle := Int.floor_le (c.acc * c.hz.val)
  have hlt := Int.lt_floor_add_one (c.acc * c.hz.val)
  rw [← hdue] at hle hlt
  rw [sub_nonneg, div_le_iff₀ hhz, sub_lt_iff_lt_add, ← add_div, lt_div_iff₀ hhz, add_comm]
  exact ⟨hle, hlt⟩

theorem Clock.delta_nonneg (c : Clock) (now : Rat) : 0 ≤ c.delta now :=
  le_min (le_max_right _ _) (by norm_num [Config.maxDelta])

/-- In Run the call runs the pulses that are due, and charges for them (40 R120). -/
theorem stepCall_run (hm : s.clock.mode = .run) (now : Rat) :
    let acc := s.clock.acc + s.clock.delta now
    let n := ({ s.clock with acc := acc } : Clock).pulsesDue
    s.stepCall now = mapNext (State.withTime · now (acc - n / s.clock.hz.val)) (s.clockPulses n) := by
  intro acc n
  have hcall : s.stepCall now = (s.withTime now acc).pulses n := by
    unfold State.stepCall
    rw [hm]
    rfl
  rw [hcall, pulses_withTime]

/-- Settles O53: the call in each control mode. -/
theorem stepCallAccountsForTime : Obligations.StepCallAccountsForTime := by
  intro s now delta
  refine ⟨fun hm => ?_, fun hm => ?_, fun hm hacc => ?_⟩
  · unfold State.stepCall
    rw [hm]
    rfl
  · unfold State.stepCall
    rcases hm with hm | hm <;> rw [hm]
  · let c : Clock := { s.clock with acc := s.clock.acc + delta }
    obtain ⟨u, hu, hclock, hphase⟩ := clockPulses_completes c.pulsesDue s
    obtain ⟨hlow, hhigh⟩ := pulsesDue_remainder c (add_nonneg hacc (s.clock.delta_nonneg now))
    refine ⟨c.pulsesDue, u, hu, u.withTime now (c.acc - c.pulsesDue / s.clock.hz.val), ?_, rfl, ?_, ?_, hlow, hhigh,
      hphase⟩
    · exact (stepCall_run hm now).trans (congrArg _ hu)
    · rw [State.withTime, hclock]
      exact hm
    · rw [State.withTime, hclock]

end Sys2Proof.Machine
end

section
/-! PROOFS. From an instruction's encoding to its dispatch: an execute cycle runs the instruction that the bytes of the
encoding begin with. The statements about single instructions cite this layer. -/

namespace Sys2Proof.Machine

/-- A cell of the opcode map with its operand bytes holds the instruction that those bytes encode (30 R101 to R104). -/
theorem instrOf_of_encode {i : Instr} {op b1 b2 : Byte} {rest : List Byte} (hwf : i.wellFormed = true)
    (henc : encode i ++ rest = [op, b1, b2]) : instrOf op b1 b2 = i := by
  have hdec := decode_encode i hwf rest
  rw [henc, decode_three] at hdec
  cases hdec
  rfl

/-- An execute cycle looks the opcode up, with the bytes at R[P] and after it (30 R100, log 19). -/
theorem operandInstr_withOpcode (s : State) (op : Byte) :
    (s.withOpcode op).operandInstr = instrOf op (s.memRead s.pc) ((s.afterRead s.pc).memRead (s.pc + 1)) :=
  congrArg (instrOf · _ _) (packNibbles_opcode op)

theorem oneByte_of_encode {op : Byte} {i : Instr} (hwf : i.wellFormed = true) (henc : encode i = [op]) :
    OneByte op i := by
  refine ⟨henc, fun s => ?_⟩
  rw [operandInstr_withOpcode]
  exact instrOf_of_encode hwf (congrArg (· ++ _) henc)

theorem twoByte_of_encode {op : Byte} {mk : Byte → Instr} (hwf : ∀ k, (mk k).wellFormed = true)
    (henc : ∀ k, encode (mk k) = [op, k]) : TwoByte op mk := by
  refine ⟨henc, fun s => ?_⟩
  rw [operandInstr_withOpcode]
  exact instrOf_of_encode (hwf _) (congrArg (· ++ _) (henc _))

/-- The register number is the low nibble of the opcode (30 R102 (a)). -/
theorem registerForm_of_encode {hi : Nat} {mk : Nat → Instr} (hwf : ∀ n : Nibble, (mk n.toNat).wellFormed = true)
    (henc : ∀ n, encode (mk n) = [opN hi n]) : RegisterForm (BitVec.ofNat 4 hi) mk := fun n =>
  oneByte_of_encode (hwf n) (by rw [henc, opN, BitVec.ofNat_toNat, BitVec.setWidth_eq])

/-- A register write after changes outside R writes that register alone. -/
theorem onlyReg_setReg {s t : State} {n : Nibble} (v : Word) (h : ∀ m, t.reg m = s.reg m) :
    OnlyReg n s (t.setReg n v) := fun m hm =>
  (reg_setReg_ne t v hm).trans (h m)

end Sys2Proof.Machine
end

section
/-! PROOFS. Loads and stores (O10 to O14): one lemma for each of the two load operations, and the frame of a read or a
write for each instruction. -/

namespace Sys2Proof.Machine

/-! ## Loads -/

/-- A load changes D, and what its read does (41 R160, R162). -/
theorem loadsFrom_of_exec {i : Instr} {n : State → Nibble} (h : ∀ s, exec i s = .next (s.loadVia (n s))) :
    LoadsFrom i n := fun s =>
  ⟨_, h s, rfl, (readFrame_afterRead s _).withCpu _⟩

/-- A load that advances writes the register that it loaded through too (41 R161, R163). -/
theorem loadsAdvancing_of_exec {i : Instr} {n : State → Nibble} (h : ∀ s, exec i s = .next (s.loadAdvance (n s))) :
    LoadsAdvancing i n := fun s =>
  ⟨_, h s, rfl, reg_setReg_self _ _ _, onlyReg_setReg _ fun _ => rfl, (readFrame_afterRead s _).withCpu _⟩

/-- Each LDN has an opcode of its own and is the load through its register (41 R160). -/
theorem oneByte_loadsFrom_of_exec {op : Byte} {i : Instr} {n : Nibble} (hwf : i.wellFormed = true)
    (henc : encode i = [op]) (h : ∀ s, exec i s = .next (s.loadVia n)) : OneByte op i ∧ LoadsFrom i fun _ => n :=
  ⟨oneByte_of_encode hwf henc, loadsFrom_of_exec h⟩

/-- Settles O10: the fifteen rows of the opcode map, each the load through its register. -/
theorem ldnLoadsThroughN : Obligations.LdnLoadsThroughN := by
  refine ⟨?_, ?_, ?_, ?_, ?_, ?_, ?_, ?_, ?_, ?_, ?_, ?_, ?_, ?_, ?_⟩ <;>
    exact oneByte_loadsFrom_of_exec rfl rfl fun _ => rfl

/-- LDA is the load that advances, of the register that its number names (41 R161). -/
theorem exec_lda (n : Nibble) (s : State) : exec (.lda n.toNat) s = .next (s.loadAdvance n) := by
  show execLda n.toNat s = _
  rw [execLda, regNo_toNat]

/-- Settles O11: the register number of the opcode is the register that the load goes through. -/
theorem ldaLoadsAndAdvances : Obligations.LdaLoadsAndAdvances :=
  ⟨registerForm_of_encode (fun n => decide_eq_true n.isLt) fun _ => rfl, fun n => loadsAdvancing_of_exec (exec_lda n)⟩

/-- The immediate goes to D, and R[P] passes it (41 R164). -/
theorem ldi_immediateAlu : ImmediateAlu .ldi fun s k t => IsLogic k s t := fun k s =>
  ⟨s.takeImm.setD k, rfl, ⟨rfl, rfl⟩, rfl, reg_setReg_self _ _ _, onlyReg_setReg (t := s.afterRead s.pc) _ fun _ => rfl,
    (readFrame_afterRead s _).withCpu _⟩

/-- Settles O12: LDX and LDXA are the two loads through R[X], and LDI takes its byte at R[P]. -/
theorem ldxLdxaAndLdiLoad : Obligations.LdxLdxaAndLdiLoad :=
  ⟨oneByte_of_encode rfl rfl, loadsFrom_of_exec fun _ => rfl,
    oneByte_of_encode rfl rfl, loadsAdvancing_of_exec fun _ => rfl,
    twoByte_of_encode (fun _ => rfl) fun _ => rfl, ldi_immediateAlu⟩

/-! ## Stores -/

/-- STR is the memory write at the register that its number names (41 R165). -/
theorem exec_str (n : Nibble) (s : State) : exec (.str n.toNat) s = .next (s.memWrite (s.reg n) s.cpu.d) := by
  show execStr n.toNat s = _
  rw [execStr, regNo_toNat]

/-- Settles O13: the store is one memory write at the register that the opcode names. -/
theorem strStoresThroughN : Obligations.StrStoresThroughN :=
  ⟨registerForm_of_encode (fun n => decide_eq_true n.isLt) fun _ => rfl, fun n s =>
    ⟨_, exec_str n s, memWrite_cpu s _ _, writeFrame_memWrite s _ _⟩⟩

/-- Settles O14: the memory write at the old R[X], and then the write of R[X] alone. -/
theorem stxdStoresAndDecrements : Obligations.StxdStoresAndDecrements := by
  refine ⟨oneByte_of_encode rfl rfl, fun s => ?_⟩
  refine ⟨_, rfl, ?_, reg_setReg_self _ _ _, onlyReg_setReg _ (memWrite_reg s _ _),
    (writeFrame_memWrite s _ _).withCpu _⟩
  rw [setReg_cpu, memWrite_cpu]

end Sys2Proof.Machine
end

section
/-! PROOFS. Register operations (O15 to O18): each instruction is one update of the CPU registers, and two lemmas give the
claims about R and about D from that. -/

namespace Sys2Proof.Machine

/-! ## One update of the CPU registers -/

theorem regOk_toNat (n : Nibble) : regOk n.toNat = true := decide_eq_true n.isLt

/-- A register write reads nothing and leaves the other registers. -/
theorem setsReg_of_exec {i : Instr} {n : State → Nibble} {v : State → Word}
    (h : ∀ s, exec i s = .next (s.setReg (n s) (v s))) : SetsReg i n v := fun s =>
  ⟨_, h s, rfl, reg_setReg_self _ _ _, onlyReg_setReg _ fun _ => rfl, (readFrame_refl s).withCpu _⟩

/-- A write of D reads nothing. -/
theorem setsD_of_exec {i : Instr} {v : State → Byte} (h : ∀ s, exec i s = .next (s.setD (v s))) : SetsD i v := fun s =>
  ⟨_, h s, rfl, (readFrame_refl s).withCpu _⟩

/-! ## Counting -/

/-- INC adds one modulo 65536 (42 R170). -/
theorem exec_inc (n : Nibble) (s : State) : exec (.inc n.toNat) s = .next (s.setReg n (s.reg n + 1)) := by
  show execInc n.toNat s = _
  rw [execInc, regNo_toNat, inc16]

/-- DEC subtracts one modulo 65536 (42 R171). -/
theorem exec_dec (n : Nibble) (s : State) : exec (.dec n.toNat) s = .next (s.setReg n (s.reg n - 1)) := by
  show execDec n.toNat s = _
  rw [execDec, regNo_toNat, dec16]

/-- Settles O15: INC and DEC write the register that the opcode names, and IRX writes R[X]. -/
theorem incDecIrxCount : Obligations.IncDecIrxCount :=
  ⟨registerForm_of_encode regOk_toNat fun _ => rfl, fun n => setsReg_of_exec (exec_inc n),
    registerForm_of_encode regOk_toNat fun _ => rfl, fun n => setsReg_of_exec (exec_dec n),
    oneByte_of_encode rfl rfl, setsReg_of_exec fun _ => rfl⟩

/-! ## Halves of a register -/

/-- GLO copies `R[n].0` to D (42 R173). -/
theorem exec_glo (n : Nibble) (s : State) : exec (.glo n.toNat) s = .next (s.setD ((s.reg n).extractLsb' 0 8)) := by
  show execGlo n.toNat s = _
  rw [execGlo, regNo_toNat, lowByte]

/-- GHI copies `R[n].1` to D (42 R174). -/
theorem exec_ghi (n : Nibble) (s : State) : exec (.ghi n.toNat) s = .next (s.setD ((s.reg n).extractLsb' 8 8)) := by
  show execGhi n.toNat s = _
  rw [execGhi, regNo_toNat, highByte]

/-- Settles O16: D takes a half of the register that the opcode names. -/
theorem gloGhiReadHalves : Obligations.GloGhiReadHalves :=
  ⟨registerForm_of_encode regOk_toNat fun _ => rfl, fun n => setsD_of_exec (exec_glo n),
    registerForm_of_encode regOk_toNat fun _ => rfl, fun n => setsD_of_exec (exec_ghi n)⟩

/-- PLO keeps `R[n].1` and replaces `R[n].0` by D (42 R175). -/
theorem exec_plo (n : Nibble) (s : State) :
    exec (.plo n.toNat) s = .next (s.setReg n ((s.reg n &&& 0xFF00) ||| s.cpu.d.setWidth 16)) := by
  show execPlo n.toNat s = _
  rw [execPlo, regNo_toNat, withLow_eq]

/-- PHI keeps `R[n].0` and replaces `R[n].1` by D (42 R176). -/
theorem exec_phi (n : Nibble) (s : State) :
    exec (.phi n.toNat) s = .next (s.setReg n ((s.reg n &&& 0x00FF) ||| (s.cpu.d.setWidth 16 <<< 8))) := by
  show execPhi n.toNat s = _
  rw [execPhi, regNo_toNat, withHigh_eq]

/-- Settles O17: the masks and shifts of the statement are the model's replacement of one half. -/
theorem ploPhiWriteHalves : Obligations.PloPhiWriteHalves :=
  ⟨registerForm_of_encode regOk_toNat fun _ => rfl, fun n => setsReg_of_exec (exec_plo n),
    registerForm_of_encode regOk_toNat fun _ => rfl, fun n => setsReg_of_exec (exec_phi n)⟩

/-! ## Selecting P and X -/

/-- SEP writes P (42 R177). -/
theorem exec_sep (n : Nibble) (s : State) : exec (.sep n.toNat) s = .next (s.setP n) := by
  show execSep n.toNat s = _
  rw [execSep, regNo_toNat]

/-- SEX writes X (42 R178). -/
theorem exec_sex (n : Nibble) (s : State) : exec (.sex n.toNat) s = .next (s.setX n) := by
  show execSex n.toNat s = _
  rw [execSex, regNo_toNat]

/-- Settles O18: with P written and R untouched, the program counter is the old R[n]. -/
theorem sepSexSelectRegisters : Obligations.SepSexSelectRegisters :=
  ⟨registerForm_of_encode regOk_toNat fun _ => rfl,
    fun n s => ⟨_, exec_sep n s, rfl, setP_reg s n n, (readFrame_refl s).withCpu _⟩,
    registerForm_of_encode regOk_toNat fun _ => rfl,
    fun n s => ⟨_, exec_sex n s, rfl, (readFrame_refl s).withCpu _⟩⟩

end Sys2Proof.Machine
end

section
/-! PROOFS. The ALU (O19 to O23): an operation gives a new D and a new DF from the operand, and one lemma for each
operand form says what else the instruction does. -/

namespace Sys2Proof.Machine

/-! ## The operand forms -/

/-- The memory form of an operation reads at R[X], and D and DF take the result (43 R190). -/
theorem memoryAlu_of_exec {i : Instr} {op : State → Byte → Byte × Bool} {P : State → Byte → State → Prop}
    (hP : ∀ s m (t : State), P s m (t.setAlu (op s m))) (h : ∀ s, exec i s = .next (s.afterMemX.setAlu (op s s.memX))) :
    MemoryAlu i P := fun s =>
  ⟨_, h s, hP s _ _, rfl, (readFrame_afterRead s _).withCpu _⟩

/-- The immediate form reads at R[P] and moves R[P] past the operand too (43 R190). -/
theorem immediateAlu_of_exec {mk : Byte → Instr} {op : State → Byte → Byte × Bool} {P : State → Byte → State → Prop}
    (hP : ∀ s k (t : State), P s k (t.setAlu (op s k))) (h : ∀ k s, exec (mk k) s = .next (s.takeImm.setAlu (op s k))) :
    ImmediateAlu mk P := fun k s =>
  ⟨_, h k s, hP s k _, rfl, reg_setReg_self _ _ _, onlyReg_setReg (t := s.afterRead s.pc) _ fun _ => rfl,
    (readFrame_afterRead s _).withCpu _⟩

/-! ## Logic -/

/-- A logic operation gives DF back as its second result (43 R195 to R200). -/
theorem isLogic_setAlu (v : Byte) (s t : State) : IsLogic v s (t.setAlu (v, s.cpu.df)) := ⟨rfl, rfl⟩

/-- Settles O19: each operation in its two operand forms. -/
theorem logicOperations : Obligations.LogicOperations :=
  ⟨oneByte_of_encode rfl rfl, memoryAlu_of_exec (fun _ _ => isLogic_setAlu _ _) fun _ => rfl,
    twoByte_of_encode (fun _ => rfl) fun _ => rfl, immediateAlu_of_exec (fun _ _ => isLogic_setAlu _ _) fun _ _ => rfl,
    oneByte_of_encode rfl rfl, memoryAlu_of_exec (fun _ _ => isLogic_setAlu _ _) fun _ => rfl,
    twoByte_of_encode (fun _ => rfl) fun _ => rfl, immediateAlu_of_exec (fun _ _ => isLogic_setAlu _ _) fun _ _ => rfl,
    oneByte_of_encode rfl rfl, memoryAlu_of_exec (fun _ _ => isLogic_setAlu _ _) fun _ => rfl,
    twoByte_of_encode (fun _ => rfl) fun _ => rfl, immediateAlu_of_exec (fun _ _ => isLogic_setAlu _ _) fun _ _ => rfl⟩

/-! ## Arithmetic -/

/-- `AddOp` gives the sum and its carry (43 R191). -/
theorem isSum_setAlu (a b : Byte) (cin : Bool) (t : State) :
    IsSum a b cin (t.setAlu (addOp Config.dfCorner a b cin)) := addOp_eq _ a b cin

/-- `SubOp` gives the difference and the absence of a borrow (43 R192). -/
theorem isDifference_setAlu (m b : Byte) (borrow : Bool) (t : State) :
    IsDifference m b borrow (t.setAlu (subOp Config.dfCorner m b borrow)) := subOp_eq _ m b borrow

/-- Settles O20: `AddOp` of D and the operand, with no carry-in or with DF. -/
theorem additions : Obligations.Additions :=
  ⟨oneByte_of_encode rfl rfl, memoryAlu_of_exec (fun _ _ => isSum_setAlu _ _ _) fun _ => rfl,
    twoByte_of_encode (fun _ => rfl) fun _ => rfl, immediateAlu_of_exec (fun _ _ => isSum_setAlu _ _ _) fun _ _ => rfl,
    oneByte_of_encode rfl rfl, memoryAlu_of_exec (fun _ _ => isSum_setAlu _ _ _) fun _ => rfl,
    twoByte_of_encode (fun _ => rfl) fun _ => rfl, immediateAlu_of_exec (fun _ _ => isSum_setAlu _ _ _) fun _ _ => rfl⟩

/-- Settles O21: `SubOp` of the operand and D, or of D and the operand, with no borrow-in or with the
complement of DF. -/
theorem subtractions : Obligations.Subtractions :=
  ⟨oneByte_of_encode rfl rfl, memoryAlu_of_exec (fun _ _ => isDifference_setAlu _ _ _) fun _ => rfl,
    twoByte_of_encode (fun _ => rfl) fun _ => rfl,
    immediateAlu_of_exec (fun _ _ => isDifference_setAlu _ _ _) fun _ _ => rfl,
    oneByte_of_encode rfl rfl, memoryAlu_of_exec (fun _ _ => isDifference_setAlu _ _ _) fun _ => rfl,
    twoByte_of_encode (fun _ => rfl) fun _ => rfl,
    immediateAlu_of_exec (fun _ _ => isDifference_setAlu _ _ _) fun _ _ => rfl,
    oneByte_of_encode rfl rfl, memoryAlu_of_exec (fun _ _ => isDifference_setAlu _ _ _) fun _ => rfl,
    twoByte_of_encode (fun _ => rfl) fun _ => rfl,
    immediateAlu_of_exec (fun _ _ => isDifference_setAlu _ _ _) fun _ _ => rfl,
    oneByte_of_encode rfl rfl, memoryAlu_of_exec (fun _ _ => isDifference_setAlu _ _ _) fun _ => rfl,
    twoByte_of_encode (fun _ => rfl) fun _ => rfl,
    immediateAlu_of_exec (fun _ _ => isDifference_setAlu _ _ _) fun _ _ => rfl⟩

/-! ## The corner of DF -/

/-- Adding 0xFF and a carry goes once round the 256 values, so only the parameter decides DF (43 R193). -/
theorem addOp_corner (c : DfCorner) (a : Byte) : addOp c a 0xFF true = (a, decide (c = .trueCarry)) := by
  have hd : (addOp c a 0xFF true).1.toNat = (a.toNat + 255 + 1) % 256 := (addOp_eq c a 0xFF true).1
  refine Prod.ext (BitVec.eq_of_toNat_eq ?_) (addOp_eq c a 0xFF true).2
  have := a.isLt
  dsimp only
  omega

/-- Subtracting 0xFF and a borrow goes once round the 256 values too (43 R193). -/
theorem subOp_corner (c : DfCorner) (m : Byte) : subOp c m 0xFF true = (m, decide (c = .wrapped)) := by
  have hd : ((subOp c m 0xFF true).1.toNat : Int) = ((m.toNat : Int) - 255 - 1) % 256 := (subOp_eq c m 0xFF true).1
  refine Prod.ext (BitVec.eq_of_toNat_eq ?_) (subOp_eq c m 0xFF true).2
  have := m.isLt
  dsimp only
  omega

/-- The corner is the one pair of operand and carry-in whose sum does not fit a byte (43 R193). -/
theorem operand_add_carry_le {b : Byte} {cin : Bool} (h : ¬ (b = 0xFF ∧ cin = true)) : b.toNat + cin.toNat ≤ 255 := by
  have hb := b.isLt
  cases cin with
  | false => exact Nat.le_of_lt_succ hb
  | true =>
    have hne : b.toNat ≠ 255 := fun e => h ⟨BitVec.eq_of_toNat_eq e, rfl⟩
    show b.toNat + 1 ≤ 255
    omega

/-- Settles O22: the corner of each operation, and outside it neither result mentions the parameter. -/
theorem dfFollowsTheCorner : Obligations.DfFollowsTheCorner := by
  refine ⟨fun c a => ⟨addOp_corner c a, subOp_corner c a⟩, fun c c' a b cin h => ?_⟩
  have hle := operand_add_carry_le h
  exact ⟨by simp only [addOp, if_pos hle], by simp only [subOp, if_pos hle]⟩

/-! ## Shifts -/

/-- An operation without an operand reads nothing, and D and DF take its result. -/
theorem completes_setAlu {i : Instr} {s : State} {d : Byte} {df : Bool} (h : exec i s = .next (s.setAlu (d, df))) :
    Completes (exec i s) fun t => t.cpu = { s.cpu with d := d, df := df } ∧ ReadFrame [] s t :=
  ⟨_, h, rfl, (readFrame_refl s).withCpu _⟩

/-- SHR shifts a 0 in (43 R213). -/
theorem exec_shr (s : State) : exec .shr s = .next (s.setAlu (s.cpu.d >>> 1, s.cpu.d.getLsbD 0)) := by
  show execShr s = _
  simp [execShr, shiftRight_eq]

/-- SHRC shifts the old DF in at the top (43 R214). -/
theorem exec_shrc (s : State) :
    exec .shrc s = .next (s.setAlu ((if s.cpu.df then 0x80 else 0) ||| s.cpu.d >>> 1, s.cpu.d.getLsbD 0)) := by
  show execShrc s = _
  rw [execShrc, shiftRight_eq]

/-- SHL shifts a 0 in (43 R215). -/
theorem exec_shl (s : State) : exec .shl s = .next (s.setAlu (s.cpu.d <<< 1, s.cpu.d.getLsbD 7)) := by
  show execShl s = _
  simp [execShl, shiftLeft_eq]

/-- SHLC shifts the old DF in at the bottom (43 R216). -/
theorem exec_shlc (s : State) :
    exec .shlc s = .next (s.setAlu (s.cpu.d <<< 1 ||| (if s.cpu.df then 1 else 0), s.cpu.d.getLsbD 7)) := by
  show execShlc s = _
  rw [execShlc, shiftLeft_eq]

/-- Settles O23: each shift as an update of D and DF. -/
theorem shifts : Obligations.Shifts :=
  ⟨⟨oneByte_of_encode rfl rfl, fun s => completes_setAlu (exec_shr s)⟩,
    ⟨oneByte_of_encode rfl rfl, fun s => completes_setAlu (exec_shrc s)⟩,
    ⟨oneByte_of_encode rfl rfl, fun s => completes_setAlu (exec_shl s)⟩,
    ⟨oneByte_of_encode rfl rfl, fun s => completes_setAlu (exec_shlc s)⟩⟩

end Sys2Proof.Machine
end

section
/-! PROOFS. Branches and skips (O24 to O27): every instruction of the group is one of three operand forms under its own
condition. One lemma for each form gives the claim about all its instructions, so an instruction adds its row of the
opcode map and its condition. -/

namespace Sys2Proof.Machine

/-! ## Conditions -/

/-- The condition of the nonzero tests is the complement of the zero test (44 R241, R258, R262). -/
theorem not_dZero (s : State) : (!s.dZero) = decide (s.cpu.d ≠ 0) := decide_not.symm

/-! ## Short branches -/

/-- A short branch reads its operand byte, taken or not, and writes R[P] alone (44 R230). -/
theorem branchesShort_of_exec {mk : Byte → Instr} {cond : State → Bool}
    (h : ∀ a s, exec (mk a) s = .next (s.shortBranch (cond s) a)) : BranchesShort mk cond := fun a s => by
  rw [h, shortBranch_eq]
  exact ⟨_, rfl, rfl, reg_setReg_self _ _ _, onlyReg_setReg _ (afterRead_reg s _), (readFrame_afterRead s _).withCpu _⟩

theorem twoByte_branchesShort_of_exec {op : Byte} {mk : Byte → Instr} {cond : State → Bool}
    (hwf : ∀ a, (mk a).wellFormed = true) (henc : ∀ a, encode (mk a) = [op, a])
    (h : ∀ a s, exec (mk a) s = .next (s.shortBranch (cond s) a)) : TwoByte op mk ∧ BranchesShort mk cond :=
  ⟨twoByte_of_encode hwf henc, branchesShort_of_exec h⟩

/-- BNZ branches on the complement of the zero test (44 R241). -/
theorem exec_bnz (a : Byte) (s : State) : exec (.bnz a) s = .next (s.shortBranch (decide (s.cpu.d ≠ 0)) a) := by
  show execBnz a s = _
  rw [execBnz, not_dZero]

/-- Settles O24: the eight conditions of the short branch. -/
theorem shortBranches : Obligations.ShortBranches :=
  ⟨twoByte_branchesShort_of_exec (fun _ => rfl) (fun _ => rfl) fun _ _ => rfl,
    twoByte_branchesShort_of_exec (fun _ => rfl) (fun _ => rfl) fun _ _ => rfl,
    twoByte_branchesShort_of_exec (fun _ => rfl) (fun _ => rfl) fun _ _ => rfl,
    twoByte_branchesShort_of_exec (fun _ => rfl) (fun _ => rfl) fun _ _ => rfl,
    twoByte_branchesShort_of_exec (fun _ => rfl) (fun _ => rfl) fun _ _ => rfl,
    twoByte_branchesShort_of_exec (fun _ => rfl) (fun _ => rfl) fun _ _ => rfl,
    twoByte_branchesShort_of_exec (fun _ => rfl) (fun _ => rfl) fun _ _ => rfl,
    twoByte_branchesShort_of_exec (fun _ => rfl) (fun _ => rfl) fun _ _ => rfl⟩

/-- Settles O25: SKP writes R[P] and reads nothing, and the others are the short branch on the complements. -/
theorem shortBranchesOnTheComplement : Obligations.ShortBranchesOnTheComplement :=
  ⟨⟨twoByte_of_encode (fun _ => rfl) fun _ => rfl, fun _ => setsReg_of_exec fun _ => rfl⟩,
    twoByte_branchesShort_of_exec (fun _ => rfl) (fun _ => rfl) fun _ _ => rfl,
    twoByte_branchesShort_of_exec (fun _ => rfl) (fun _ => rfl) exec_bnz,
    twoByte_branchesShort_of_exec (fun _ => rfl) (fun _ => rfl) fun _ _ => rfl,
    twoByte_branchesShort_of_exec (fun _ => rfl) (fun _ => rfl) fun _ _ => rfl,
    twoByte_branchesShort_of_exec (fun _ => rfl) (fun _ => rfl) fun _ _ => rfl,
    twoByte_branchesShort_of_exec (fun _ => rfl) (fun _ => rfl) fun _ _ => rfl,
    twoByte_branchesShort_of_exec (fun _ => rfl) (fun _ => rfl) fun _ _ => rfl⟩

/-! ## Long branches -/

/-- The two operand bytes are the halves of the target, high byte first (30 R102 (d)). -/
theorem threeByte_of_encode {op : Byte} {mk : Word → Instr} (hwf : ∀ hl, (mk hl).wellFormed = true)
    (henc : ∀ hl, encode (mk hl) = [op, targetHigh hl, targetLow hl]) : ThreeByte op mk := by
  have hbytes : ∀ h l : Byte, encode (mk (h ++ l)) = [op, h, l] := fun h l => by
    rw [henc, targetHigh_append, targetLow_append]
  refine ⟨hbytes, fun s => ?_⟩
  rw [operandInstr_withOpcode]
  exact instrOf_of_encode (hwf _) (congrArg (· ++ []) (hbytes _ _))

/-- A long branch that is taken reads its two target bytes, and one that is not reads nothing; both write R[P] alone
(44 R250). -/
theorem branchesLong_of_exec {mk : Word → Instr} {cond : State → Bool}
    (h : ∀ hl s, exec (mk hl) s = .next (s.longBranch (cond s) hl)) : BranchesLong mk cond := fun hl s => by
  rw [h, longBranch_eq]
  cases cond s with
  | true =>
    exact ⟨_, rfl, rfl, reg_setReg_self _ _ _, onlyReg_setReg _ fun _ => rfl,
      (readFrame_afterRead_two s _ _).withCpu _⟩
  | false =>
    exact ⟨_, rfl, rfl, reg_setReg_self _ _ _, onlyReg_setReg _ fun _ => rfl, (readFrame_refl s).withCpu _⟩

theorem threeByte_branchesLong_of_exec {op : Byte} {mk : Word → Instr} {cond : State → Bool}
    (hwf : ∀ hl, (mk hl).wellFormed = true) (henc : ∀ hl, encode (mk hl) = [op, targetHigh hl, targetLow hl])
    (h : ∀ hl s, exec (mk hl) s = .next (s.longBranch (cond s) hl)) : ThreeByte op mk ∧ BranchesLong mk cond :=
  ⟨threeByte_of_encode hwf henc, branchesLong_of_exec h⟩

/-- LBNZ branches on the complement of the zero test (44 R262). -/
theorem exec_lbnz (hl : Word) (s : State) : exec (.lbnz hl) s = .next (s.longBranch (decide (s.cpu.d ≠ 0)) hl) := by
  show execLbnz hl s = _
  rw [execLbnz, not_dZero]

/-- Settles O26: the seven conditions of the long branch. -/
theorem longBranches : Obligations.LongBranches :=
  ⟨threeByte_branchesLong_of_exec (fun _ => rfl) (fun _ => rfl) fun _ _ => rfl,
    threeByte_branchesLong_of_exec (fun _ => rfl) (fun _ => rfl) fun _ _ => rfl,
    threeByte_branchesLong_of_exec (fun _ => rfl) (fun _ => rfl) fun _ _ => rfl,
    threeByte_branchesLong_of_exec (fun _ => rfl) (fun _ => rfl) fun _ _ => rfl,
    threeByte_branchesLong_of_exec (fun _ => rfl) (fun _ => rfl) fun _ _ => rfl,
    threeByte_branchesLong_of_exec (fun _ => rfl) (fun _ => rfl) exec_lbnz,
    threeByte_branchesLong_of_exec (fun _ => rfl) (fun _ => rfl) fun _ _ => rfl⟩

/-! ## Long skips -/

/-- Writing a register's own value changes nothing. -/
theorem setReg_reg_self (s : State) (n : Nibble) : s.setReg n (s.reg n) = s := by
  rw [State.setReg, State.reg, Vector.set_getElem_self]

/-- A long skip is a write of R[P] in both cases: where it does not skip, R[P] takes its own value (44 R251). -/
theorem longSkip_eq_setReg (s : State) (cond : Bool) :
    s.longSkip cond = s.setReg s.cpu.p (if cond then s.reg s.cpu.p + 2 else s.reg s.cpu.p) := by
  rw [longSkip_eq]
  cases cond with
  | true => rfl
  | false => exact (setReg_reg_self s s.cpu.p).symm

theorem oneByte_skipsLong_of_exec {op : Byte} {i : Instr} {cond : State → Bool} (hwf : i.wellFormed = true)
    (henc : encode i = [op]) (h : ∀ s, exec i s = .next (s.longSkip (cond s))) : OneByte op i ∧ SkipsLong i cond :=
  ⟨oneByte_of_encode hwf henc, setsReg_of_exec fun s => by rw [h, longSkip_eq_setReg]⟩

/-- LSNZ skips on the complement of the zero test (44 R258). -/
theorem exec_lsnz (s : State) : exec .lsnz s = .next (s.longSkip (decide (s.cpu.d ≠ 0))) := by
  show execLsnz s = _
  rw [execLsnz, not_dZero]

/-- Settles O27: NOP is the identity (44 R256), and the others are the eight conditions of the long skip. -/
theorem longSkipsAndNop : Obligations.LongSkipsAndNop :=
  ⟨⟨oneByte_of_encode rfl rfl, fun _ => rfl⟩,
    oneByte_skipsLong_of_exec rfl rfl fun _ => rfl,
    oneByte_skipsLong_of_exec rfl rfl exec_lsnz,
    oneByte_skipsLong_of_exec rfl rfl fun _ => rfl,
    oneByte_skipsLong_of_exec rfl rfl fun _ => rfl,
    oneByte_skipsLong_of_exec rfl rfl fun _ => rfl,
    oneByte_skipsLong_of_exec rfl rfl fun _ => rfl,
    oneByte_skipsLong_of_exec rfl rfl fun _ => rfl,
    oneByte_skipsLong_of_exec rfl rfl fun _ => rfl⟩

end Sys2Proof.Machine
end

section
/-! PROOFS. Ports: what an input device does (O35), and the output, input and 0x68 instructions (O28 to O30). An access
is described first as one equation per device; the instructions then add their memory access. -/

namespace Sys2Proof.Machine

variable {s t : State} {n : Port}

/-! ## What a port access leaves alone -/

theorem PortOnly.clock (h : PortOnly s t) : t.clock = s.clock := by rw [h]

theorem PortOnly.mem (h : PortOnly s t) : t.plat.mem = s.plat.mem := by rw [h]

theorem PortOnly.cpu (h : PortOnly s t) : t.cpu = { s.cpu with ef := t.cpu.ef } := by rw [h]

theorem PortOnly.reg (h : PortOnly s t) (m : Nibble) : t.reg m = s.reg m := by
  rw [h]
  rfl

theorem RequestsOnly.video (h : RequestsOnly s t) : t.video = s.video := by rw [h]

/-- An input device may issue requests, turn the display on and use up the host's bytes (60 R351). -/
theorem deviceIn_eq (s : State) (dev : InDevice) : (s.deviceIn dev).2 = { s with
    stepper := (s.deviceIn dev).2.stepper
    video := (s.deviceIn dev).2.video
    env := (s.deviceIn dev).2.env } := by
  cases dev with
  | nothing | displayOn => rfl
  | external =>
    have h : RequestsOnly s s.react.supply.2 := (react_only s).trans (supply_only _)
    rw [State.deviceIn, h]

/-- The VP590's background port steps a register of the board and nothing else (60 R334). -/
theorem stepBackground_eq (s : State) (d : Dir) (n : Port) :
    s.stepBackground d n = { s with plat := { s.plat with board := (s.stepBackground d n).plat.board } } := by
  unfold State.stepBackground
  split
  · split <;> rfl
  · rfl

/-- No device on an input port drives an EF line: an input changes no CPU register (45 R283). -/
theorem portIn_cpu (s : State) (n : Port) : (s.portIn n).2.cpu = s.cpu := by
  unfold State.portIn
  split
  · dsimp only
    rw [touch_cpu, stepBackground_eq, deviceIn_eq, emit_eq]
  · rfl

/-! ## An input, device by device -/

/-- Without a callback the byte is 0x00 and nothing is called (00 R14, log 7). -/
theorem portIn_of_not_attached (ha : s.plat.wiring.attached.portIn = false) :
    s.portIn n = (0, s.touch .portIn n.toNat) := by
  simp [State.portIn, ha]

/-- In the VIP default wiring port 1 alone reaches a device (60 R351, 92 D18). -/
theorem vip_inp (n : Port) : Wiring.vip.inp[n.toNat]'n.isLt = if n = 1 then .displayOn else .nothing := by
  revert n; decide

section
variable (hbg : (∀ v, s.plat.board ≠ .vp590 v) ∨ Config.vp590BackgroundPort ≠ (.input, n))
include hbg

theorem atBackground_eq_false : s.atBackground n = false := by
  unfold State.atBackground
  split
  · next v hv => exact decide_eq_false (hbg.resolve_left fun h => h v hv)
  · rfl

section
variable (ha : s.plat.wiring.attached.portIn = true)
include ha

/-- On a port that is not the VP590's background port an input is the port map's device alone (60 R351). -/
theorem portIn_of_attached {dev : InDevice} (hdev : s.plat.wiring.inp[n.toNat]'n.isLt = dev) : s.portIn n =
    (((s.emit true (.portIn n)).deviceIn dev).1,
      ((s.emit true (.portIn n)).deviceIn dev).2.touch .portIn n.toNat) := by
  have hboard : ((s.emit true (.portIn n)).deviceIn dev).2.plat.board = s.plat.board := by rw [deviceIn_eq, emit_eq]
  unfold State.portIn
  rw [if_pos ha, hdev, atBackground_eq_false hbg]
  dsimp only
  rw [stepBackground_none (by rwa [hboard]), if_neg Bool.false_ne_true]

theorem portIn_nothing (hdev : s.plat.wiring.inp[n.toNat]'n.isLt = .nothing) :
    s.portIn n = (0, (s.emit true (.portIn n)).touch .portIn n.toNat) :=
  portIn_of_attached hbg ha hdev

theorem portIn_displayOn (hdev : s.plat.wiring.inp[n.toNat]'n.isLt = .displayOn) :
    (s.portIn n).1 = 0 ∧ (s.portIn n).2.video = { s.video with display := true } ∧
    (s.portIn n).2.stepper = s.stepper ∧ (s.portIn n).2.env = { s.env with out := .portIn n :: s.env.out } := by
  rw [portIn_of_attached hbg ha hdev]
  exact ⟨rfl, rfl, rfl, rfl⟩

/-- A device of the host's may issue requests, and supplies the next byte of the tape or a free one (log 2, log 12). -/
theorem portIn_external (hdev : s.plat.wiring.inp[n.toNat]'n.isLt = .external) :
    (s.portIn n).1 = s.env.tape.head?.getD (Config.freeByte s.env.draws) ∧ (s.portIn n).2.video = s.video ∧
    (s.portIn n).2.stepper = ((s.env.reactions.headD []).foldl State.request s).stepper ∧
    (s.portIn n).2.env = { s.env with
      reactions := s.env.reactions.tail
      tape := s.env.tape.tail
      draws := if s.env.tape = [] then s.env.draws + 1 else s.env.draws
      out := .portIn n :: s.env.out } := by
  rw [portIn_of_attached hbg ha hdev, State.deviceIn, supply_eq, react_env]
  exact ⟨rfl, (react_only _).video, react_stepper_congr rfl rfl rfl, rfl⟩

/-- The callback is told the port, whatever device answers (45 R283). -/
theorem portIn_out : (s.portIn n).2.env.out = .portIn n :: s.env.out := by
  cases hdev : s.plat.wiring.inp[n.toNat]'n.isLt with
  | nothing => rw [portIn_nothing hbg ha hdev]; rfl
  | displayOn =>
    obtain ⟨-, -, -, henv⟩ := portIn_displayOn hbg ha hdev
    rw [henv]
  | external =>
    obtain ⟨-, -, -, henv⟩ := portIn_external hbg ha hdev
    rw [henv]

end

/-- Of the platform such an input may release the address-inhibit latch alone (log 7). -/
theorem portIn_plat : (s.portIn n).2.plat =
    { s.plat with latch := s.plat.latch && !s.plat.wiring.releases .portIn n.toNat } := by
  cases ha : s.plat.wiring.attached.portIn with
  | false => rw [portIn_of_not_attached ha]; rfl
  | true => rw [portIn_of_attached hbg ha rfl, deviceIn_eq, emit_eq]; rfl

theorem portIn_vip (hw : s.plat.wiring = Wiring.vip) : (s.portIn n).1 = 0 ∧ (s.portIn n).2.stepper = s.stepper ∧
    (s.portIn n).2.video = if n = 1 then { s.video with display := true } else s.video := by
  have ha : s.plat.wiring.attached.portIn = true := by rw [hw]; rfl
  have hdev : s.plat.wiring.inp[n.toNat]'n.isLt = if n = 1 then .displayOn else .nothing := by
    simp only [hw, vip_inp]
  split_ifs at hdev ⊢
  · obtain ⟨hbyte, hvideo, hstepper, -⟩ := portIn_displayOn hbg ha hdev
    exact ⟨hbyte, hstepper, hvideo⟩
  · rw [portIn_nothing hbg ha hdev]
    exact ⟨rfl, rfl, rfl⟩

end

/-- Settles O35: the parts that every input leaves alone, and then each device. -/
theorem inputDevices : Obligations.InputDevices := by
  intro s n hbg b t
  refine ⟨portIn_cpu s n, (portIn_only s n).clock, portIn_plat hbg,
    fun ha => Prod.ext_iff.1 (portIn_of_not_attached ha),
    fun ha => ⟨portIn_out hbg ha, fun hdev => Prod.ext_iff.1 (portIn_nothing hbg ha hdev), fun hdev => ?_,
      fun hdev => ?_⟩,
    portIn_vip hbg⟩
  · obtain ⟨hbyte, hvideo, hstepper, -⟩ := portIn_displayOn hbg ha hdev
    exact ⟨hbyte, hvideo, hstepper⟩
  · obtain ⟨hbyte, hvideo, hstepper, henv⟩ := portIn_external hbg ha hdev
    refine ⟨hvideo, fun c cs htape => ?_, fun htape => ?_, fun hr => ?_, fun rs rest hr => ?_⟩
    · simp [b, t, hbyte, henv, htape]
    · simp [b, t, hbyte, henv, htape]
    · simp [t, hstepper, hr]
    · simp [t, hstepper, henv, hr]

/-! ## Output instructions -/

/-- OUT reads at R[X], passes it, and gives the byte to the port (45 R281). -/
theorem sendsToPort_of_exec {i : Instr} (h : ∀ s, exec i s = .next (s.outPort n)) : SendsToPort i n := fun s => by
  have hport : PortOnly ((s.afterRead (s.reg s.cpu.x)).setReg s.cpu.x (s.reg s.cpu.x + 1)) (s.outPort n) :=
    portOut_only _ n _
  refine ⟨_, h s, rfl, ?_, fun m hm => ?_, ?_, fun k => ?_, exec_sameCycle (h s), hport.clock⟩
  · rw [hport.reg, reg_setReg_self]
  · rw [hport.reg, reg_setReg_ne _ _ hm, afterRead_reg]
  · rw [hport.cpu]
    rfl
  · rw [hport.mem, setReg_plat, afterRead_plat_mem]

theorem oneByte_sendsToPort_of_exec {op : Byte} {i : Instr} (hwf : i.wellFormed = true) (henc : encode i = [op])
    (h : ∀ s, exec i s = .next (s.outPort n)) : OneByte op i ∧ SendsToPort i n :=
  ⟨oneByte_of_encode hwf henc, sendsToPort_of_exec h⟩

/-- Settles O28: the seven rows of the opcode map, each the output to its port. -/
theorem outSendsToPort : Obligations.OutSendsToPort := by
  refine ⟨?_, ?_, ?_, ?_, ?_, ?_, ?_⟩ <;> exact oneByte_sendsToPort_of_exec rfl rfl fun _ => rfl

/-! ## Input instructions -/

theorem setD_cpu (s : State) (v : Byte) : (s.setD v).cpu = { s.cpu with d := v } := rfl

/-- INP stores the port's byte at R[X] and loads it into D (45 R283). -/
theorem takesFromPort_of_exec {i : Instr} (h : ∀ s, exec i s = .next (s.inPort n)) : TakesFromPort i n := fun s => by
  have hport := portIn_only s n
  have hin : s.inPort n =
      ((s.portIn n).2.memWrite (s.reg s.cpu.x) (s.portIn n).1).setD (s.portIn n).1 := by
    unfold State.inPort
    dsimp only
    rw [hport.reg, portIn_cpu]
  have hcpu : (s.inPort n).cpu = { s.cpu with d := (s.portIn n).1 } := by
    rw [hin, setD_cpu, memWrite_cpu, portIn_cpu]
  refine ⟨_, h s, hcpu, ?_, hport.mem, exec_sameCycle (h s), ?_⟩
  · rw [hin]
    exact (writeFrame_memWrite _ _ _).withCpu _
  · rw [hin, setD_clock, memWrite_clock, hport.clock]

theorem oneByte_takesFromPort_of_exec {op : Byte} {i : Instr} (hwf : i.wellFormed = true) (henc : encode i = [op])
    (h : ∀ s, exec i s = .next (s.inPort n)) : OneByte op i ∧ TakesFromPort i n :=
  ⟨oneByte_of_encode hwf henc, takesFromPort_of_exec h⟩

/-- Settles O29: the seven rows of the opcode map, each the input from its port. -/
theorem inpTakesFromPort : Obligations.InpTakesFromPort := by
  refine ⟨?_, ?_, ?_, ?_, ?_, ?_, ?_⟩ <;> exact oneByte_takesFromPort_of_exec rfl rfl fun _ => rfl

/-- The VP590's background port is one of 1 to 7, so an input from port 0 has no part in the board (20 R78). -/
theorem backgroundPort_ne_input_zero : Config.vp590BackgroundPort ≠ (.input, 0) := fun h =>
  vp590BackgroundPort_ne_zero (congrArg Prod.snd h)

/-- Without a device or without the callback, port 0 supplies 0x00 whatever board is installed (45 R282, 00 R14). -/
theorem portIn_zero_byte (h : s.plat.wiring.inp[0] = .nothing ∨ s.plat.wiring.attached.portIn = false) :
    (s.portIn 0).1 = 0 := by
  cases ha : s.plat.wiring.attached.portIn with
  | false => rw [portIn_of_not_attached ha]
  | true => rw [portIn_nothing (.inr backgroundPort_ne_input_zero) ha (h.resolve_right (by simp [ha]))]

theorem portIn_zero_board (s : State) : (s.portIn 0).2.plat.board = s.plat.board := by
  rw [portIn_plat (.inr backgroundPort_ne_input_zero)]

/-- Settles O30: with `P_OP68 = Input0` the opcode is the input instruction of port 0. -/
theorem opcode68IsInputFromPort0 : Obligations.Opcode68IsInputFromPort0 := by
  have htakes : TakesFromPort .inp0 0 := takesFromPort_of_exec fun _ => rfl
  refine ⟨oneByte_of_encode rfl rfl, htakes, fun _ => rfl, fun s h => ?_⟩
  have hbyte := portIn_zero_byte h
  refine ⟨hbyte, portIn_zero_board s, (htakes s).mono fun t ⟨hcpu, hframe, _⟩ => ?_⟩
  rw [hbyte] at hcpu hframe
  exact ⟨hcpu, hframe⟩

end Sys2Proof.Machine
end

section
/-! PROOFS. Control: IDL (O5), the return of RET and DIS (O31), and the stores of T by SAV and MARK (O32). -/

namespace Sys2Proof.Machine

/-! ## Idle -/

/-- With nothing scripted, a boundary in Fetch is the fetch cycle (40 R123, R126). -/
theorem boundary_fetch {s : State} (hs : s.env.script = []) (hm : s.clock.mode = .run) (hc : s.stepper.cycle = .fetch) :
    s.boundary = .next (s.driveKeypad.qOut.syncTick.fetchCycle Config.idlAdvances) := by
  obtain ⟨hcycle, -⟩ := (unscripted_beforeStep s).sameCycle
  exact (boundary_run hs hm).trans (cpuStep_fetch (hcycle.trans hc))

/-- An idle machine has no instruction to finish (log 1). -/
theorem finishInstruction_idle {s : State} (fuel : Nat) (hi : s.stepper.idle = true) :
    s.finishInstruction fuel = .next s := by
  cases fuel with
  | zero => rfl
  | succ fuel => exact if_neg (by simp [State.midInstruction, hi])

/-- Settles O5: the step ends with the fetch of 0x00, which passes the opcode since `P_IDL_ADVANCES` = true. -/
theorem idlIdles : Obligations.IdlIdles := by
  refine ⟨oneByte_of_encode rfl rfl, fun _ => rfl, fun s hs hm hc hop => ?_⟩
  have hb := unscripted_beforeStep s
  let f := s.driveKeypad.qOut.syncTick.fetchCycle Config.idlAdvances
  have hidle : f.stepper.idle = true := decide_eq_true (by rw [hb.pc, hb.memRead, hop])
  have hp : s.driveKeypad.qOut.syncTick.cpu.p = s.cpu.p := by rw [hb.cpu]
  have hreg (m : Nibble) : f.reg m = if m = s.cpu.p then s.pc + 1 else s.reg m := by
    rw [fetchCycle_reg, if_pos (.inr rfl : _ ∨ Config.idlAdvances = true), hp, hb.pc, hb.reg]
  refine ⟨f, ?_, hidle, rfl, (hreg _).trans (if_pos hp), fun m hm => (hreg m).trans (if_neg hm)⟩
  calc step s = andThen s.boundary (State.finishInstruction 2) := rfl
    _ = .next f := by rw [boundary_fetch hs hm hc, andThen_next, finishInstruction_idle 2 hidle]

/-! ## Return -/

/-- The return reads at the old R[X], which is passed whatever X becomes (45 R287, R288). -/
theorem returnFrom_restores (s : State) (ie : Bool) :
    (s.returnFrom ie).cpu = { s.cpu with
      r := (s.returnFrom ie).cpu.r
      x := (s.memRead (s.reg s.cpu.x)).extractLsb' 4 4
      p := (s.memRead (s.reg s.cpu.x)).extractLsb' 0 4
      ie := ie } ∧
    (s.returnFrom ie).reg s.cpu.x = s.reg s.cpu.x + 1 ∧ OnlyReg s.cpu.x s (s.returnFrom ie) ∧
    ReadFrame [s.reg s.cpu.x] s (s.returnFrom ie) :=
  ⟨rfl, reg_setReg_self s _ _, onlyReg_setReg (t := s) _ fun _ => rfl, (readFrame_afterRead s _).withCpu _⟩

/-- Settles O31: RET and DIS are the return with IE set and with IE cleared. -/
theorem retAndDisRestore : Obligations.RetAndDisRestore :=
  ⟨oneByte_of_encode rfl rfl, oneByte_of_encode rfl rfl,
    fun s => ⟨⟨_, rfl, returnFrom_restores s true⟩, ⟨_, rfl, returnFrom_restores s false⟩⟩⟩

/-! ## Stores of T -/

/-- Settles O32: SAV is a memory write, and MARK is one at R[2] between writes of T, X and R[2]. -/
theorem savAndMarkStoreT : Obligations.SavAndMarkStoreT := by
  refine ⟨oneByte_of_encode rfl rfl, fun s => ⟨_, rfl, memWrite_cpu s _ _, writeFrame_memWrite s _ _⟩,
    oneByte_of_encode rfl rfl, fun s => ?_⟩
  refine ⟨_, rfl, ?_, reg_setReg_self _ _ _, onlyReg_setReg _ (memWrite_reg (s.setT _) _ _),
    (writeFrame_memWrite (s.setT _) _ _).ofCpu.withCpu _⟩
  show ((((s.setT _).memWrite _ _).setX _).setReg _ _).cpu = _
  rw [memWrite_eq]
  rfl

end Sys2Proof.Machine
end

section
/-! PROOFS. Q (O33). Of all the calls of a machine cycle, its first one alone reports Q: no other operation makes that
call, from the requests and the devices up to the CPU step. -/

namespace Sys2Proof.Machine

/-- From `s` to `t` no Q was reported. -/
def SameReports (s t : State) : Prop := qReports t.env.out = qReports s.env.out

variable {s t u : State}

theorem SameReports.trans (h : SameReports s t) (h' : SameReports t u) : SameReports s u := Eq.trans h' h

theorem SameReports.of_env (h : t.env = s.env) : SameReports s t :=
  congrArg (fun e : Env => qReports e.out) h

theorem SameReports.when {b : Bool} (h : SameReports s t) : SameReports s (if b = true then t else s) := by
  split
  · exact h
  · rfl

/-! ## Calls of other callbacks -/

theorem emit_sameReports (s : State) (b : Bool) (o : Output) (ho : ∀ v, o ≠ .q v) : SameReports s (s.emit b o) := by
  unfold SameReports
  rw [emit_eq]
  cases b with
  | false => rfl
  | true => cases o with
    | q v => exact absurd rfl (ho v)
    | portOut | portIn | dmaIn | dmaOut | pixel | clearFrame | present => rfl

theorem react_sameReports (s : State) : SameReports s s.react := by
  unfold SameReports
  rw [react_env]

theorem supply_sameReports (s : State) : SameReports s s.supply.2 := by
  unfold SameReports
  rw [supply_eq]

theorem present_sameReports (s : State) : SameReports s s.present :=
  emit_sameReports s _ .present nofun

theorem sync_sameReports (s : State) : SameReports s s.sync := by
  unfold State.sync
  extract_lets v s1 s2 s3 s4
  have h1 : SameReports s s1 := .when (.of_env rfl)
  have h2 : SameReports s1 s2 := .when (.of_env (request_env s1 .interrupt))
  have h3 : SameReports s2 s3 := .when (.of_env (request_env s2 (.dma .output _)))
  have h4 : SameReports s3 s4 := .when (present_sameReports s3)
  exact h1.trans (h2.trans (h3.trans h4))

theorem syncTick_sameReports (s : State) : SameReports s s.syncTick := (sync_sameReports s).when

/-! ## The devices and the ports -/

theorem setDisplay_sameReports (s : State) (e : Bool) : SameReports s (s.setDisplay e) := by
  cases e with
  | true => exact .of_env rfl
  | false =>
    exact (emit_sameReports { s with video := { s.video with display := false, cursor := 0 } } _
      .clearFrame nofun).trans
      (present_sameReports _)

theorem driveKeypad_env (s : State) : s.driveKeypad.env = s.env := by
  unfold State.driveKeypad
  split <;> rfl

theorem setRate_env (s : State) (b : Byte) : (s.setRate b).env = s.env := by
  unfold State.setRate
  split <;> rfl

theorem stepBackground_env (s : State) (d : Dir) (n : Port) : (s.stepBackground d n).env = s.env := by
  rw [stepBackground_eq]

theorem deviceOut_sameReports (s : State) (dev : OutDevice) (b : Byte) : SameReports s (s.deviceOut dev b) := by
  cases dev with
  | ignored => exact .of_env rfl
  | displayOff => exact setDisplay_sameReports s false
  | keyLatch => exact .of_env (driveKeypad_env _)
  | divider => exact .of_env (setRate_env s b)
  | external => exact react_sameReports s

theorem deviceIn_sameReports (s : State) (dev : InDevice) : SameReports s (s.deviceIn dev).2 := by
  cases dev with
  | nothing => exact .of_env rfl
  | displayOn => exact setDisplay_sameReports s true
  | external => exact (react_sameReports s).trans (supply_sameReports _)

theorem portOut_sameReports (s : State) (n : Port) (b : Byte) : SameReports s (s.portOut n b) :=
  (((emit_sameReports s true (.portOut n b) nofun).trans (deviceOut_sameReports _ _ b)).trans
    (.of_env (stepBackground_env _ .output n))).when

theorem portIn_sameReports (s : State) (n : Port) : SameReports s (s.portIn n).2 := by
  unfold State.portIn
  split
  · exact ((emit_sameReports s true (.portIn n) nofun).trans (deviceIn_sameReports _ _)).trans
      (.of_env (stepBackground_env ((s.emit true (.portIn n)).deviceIn _).2 .input n))
  · exact .of_env rfl

/-! ## The CPU step -/

theorem exec_sameReports {i : Instr} (h : exec i s = .next t) : SameReports s t := by
  rcases exec_cases h with hr | ⟨a, v, c, c', rfl⟩ | ⟨u, n, b, hr, rfl⟩ | ⟨n, rfl⟩
  · exact .of_env (by rw [hr])
  · exact .of_env (memWrite_env { s with cpu := c } a v)
  · exact SameReports.trans (.of_env (by rw [hr])) (portOut_sameReports u n b)
  · exact (portIn_sameReports s n).trans (.of_env (memWrite_env _ _ _))

theorem transferByte_sameReports (s : State) (d : Descriptor) : SameReports s (s.transferByte d).2 := by
  unfold State.transferByte
  cases d.cb with
  | null => exact .of_env rfl
  | host =>
    exact ((emit_sameReports s true (.dmaIn d.ctx) nofun).trans (react_sameReports _)).trans (supply_sameReports _)
  | video => exact supply_sameReports s

theorem deliver_sameReports (s : State) (d : Descriptor) (b : Byte) : SameReports s (s.deliver d b) := by
  unfold State.deliver
  cases d.cb with
  | null => exact .of_env rfl
  | host => exact (emit_sameReports s true (.dmaOut d.ctx b) nofun).trans (react_sameReports _)
  | video => exact emit_sameReports s _ (.pixel b _ _ d.ctx) nofun

theorem transfer_sameReports (s : State) (d : Descriptor) : SameReports s (s.transfer d) := by
  cases hd : d.dir with
  | input =>
    rw [transfer_input s hd]
    exact (transferByte_sameReports s d).trans (.of_env (memWrite_env _ _ _))
  | output =>
    rw [transfer_output s hd]
    exact SameReports.trans (.of_env rfl) (deliver_sameReports _ d _)

theorem arbitrate_env (s : State) : s.arbitrate.env = s.env := by rw [(arbitrate_only s).1]

theorem finishExecute_env (s : State) : s.finishExecute.env = s.env := by
  rcases finishExecute_cases s with ⟨-, h⟩ | ⟨-, h⟩ <;> rw [h]
  exact arbitrate_env _

theorem dmaCycle_sameReports (s : State) : SameReports s s.dmaCycle := by
  cases hq : s.stepper.queue with
  | nil =>
    unfold State.dmaCycle
    rw [hq]
    exact .of_env (arbitrate_env s)
  | cons d rest =>
    exact SameReports.trans (transfer_sameReports (s.withQueue rest) d) (.of_env (dmaCycle_env hq))

theorem executeCycle_sameReports (h : s.executeCycle = .next t) : SameReports s t := by
  unfold State.executeCycle at h
  split_ifs at h
  · cases h
    exact .of_env (by rw [idleCycle_only])
  · obtain ⟨u, hu, hfinish⟩ := andThen_eq_next_iff.1 h
    cases hfinish
    exact (exec_sameReports hu).trans (.of_env (finishExecute_env u))
  · cases h
    exact .of_env (finishExecute_env s)

theorem cpuStep_sameReports (h : s.cpuStep = .next t) : SameReports s t := by
  unfold State.cpuStep at h
  split at h
  · cases h; exact .of_env rfl
  · exact executeCycle_sameReports h
  · cases h; exact dmaCycle_sameReports s
  · cases h; exact .of_env rfl

/-! ## The report -/

/-- With the callback attached, a boundary reports the Q of that moment, as the newest (40 R123, 45 R295). -/
theorem qOut_qReports (h : s.plat.wiring.attached.qOut = true) :
    qReports s.qOut.env.out = s.cpu.q :: qReports s.env.out := by
  unfold State.qOut
  rw [if_pos h, react_env]
  rfl

theorem machineCycle_qReports (hq : s.plat.wiring.attached.qOut = true) (h : s.machineCycle = .next t) :
    qReports t.env.out = s.cpu.q :: qReports s.env.out :=
  calc qReports t.env.out = qReports s.qOut.env.out := (syncTick_sameReports _).trans (cpuStep_sameReports h)
    _ = s.cpu.q :: qReports s.env.out := qOut_qReports hq

/-- Settles O33: REQ and SEQ write Q alone, and the report is the machine cycle's first call. -/
theorem reqAndSeqWriteQ : Obligations.ReqAndSeqWriteQ :=
  ⟨oneByte_of_encode rfl rfl, fun s => ⟨_, rfl, rfl, (readFrame_refl s).withCpu _⟩,
    oneByte_of_encode rfl rfl, fun s => ⟨_, rfl, rfl, (readFrame_refl s).withCpu _⟩,
    fun _ _ => machineCycle_qReports⟩

end Sys2Proof.Machine
end

section
/-! PROOFS. The frame of the video controller (O46). The two counters are one count of `Sync()` calls, read in lines of
14 cycles and frames of 262 lines; the requests of a frame are then counted line by line. -/

namespace Sys2Proof.Machine

/-! ## The counters as one count -/

/-- `v` with its counters where `n` calls from line 0, cycle 0 take them (60 R322). -/
def Video.atCount (v : Video) (n : Nat) : Video := { v with cycle := n % 14, line := n / 14 % 262 }

/-- The number of calls that take the counters from line 0, cycle 0 to where they stand. -/
def Video.count (v : Video) : Nat := 14 * v.line + v.cycle

variable {v : Video}

theorem advance_atCount (v : Video) (n : Nat) : (v.atCount n).advance = v.atCount (n + 1) := by
  unfold Video.atCount Video.advance Config.lineCycles Config.frameLines
  dsimp only
  split_ifs <;> simp only [Video.mk.injEq, true_and, and_true] <;> omega

theorem advance_iterate_atCount (v : Video) (n j : Nat) : Video.advance^[j] (v.atCount n) = v.atCount (n + j) := by
  induction j with
  | zero => rfl
  | succ j ih => rw [Function.iterate_succ_apply', ih, advance_atCount, Nat.add_assoc]

theorem atCount_count (hc : v.cycle < 14) (hl : v.line < 262) : v.atCount v.count = v := by
  obtain ⟨_, cycle, line, _⟩ := v
  have hcycle : (14 * line + cycle) % 14 = cycle := by dsimp only at hc; omega
  have hline : (14 * line + cycle) / 14 % 262 = line := by dsimp only at hc hl; omega
  simp only [Video.atCount, Video.count, hcycle, hline]

/-- A frame of calls is a multiple of both ranges. -/
theorem atCount_add_frame (v : Video) (n : Nat) : v.atCount (n + 14 * 262) = v.atCount n := by
  have hcycle : (n + 14 * 262) % 14 = n % 14 := by omega
  have hline : (n + 14 * 262) / 14 % 262 = n / 14 % 262 := by omega
  simp only [Video.atCount, hcycle, hline]

/-! ## Counting by lines -/

theorem countP_range_eq {c n : Nat} (h : c < n) : (List.range n).countP (fun i => decide (i = c)) = 1 :=
  List.count_eq_one_of_mem List.nodup_range (List.mem_range.2 h)

theorem countP_range_between (lo hi n : Nat) :
    (List.range n).countP (fun i => decide (lo ≤ i) && decide (i ≤ hi)) = min n (hi + 1) - min n lo := by
  induction n with
  | zero => simp
  | succ n ih =>
    rw [List.range_succ, List.countP_append, List.countP_singleton, ih, ← Bool.decide_and]
    split_ifs with h <;> rw [decide_eq_true_iff] at h <;> omega

/-- What happens at one cycle `c` of some lines happens once for each of these lines. -/
theorem countP_range_lines {c : Nat} (hc : c < 14) (p : Nat → Bool) (lines : Nat) :
    (List.range (14 * lines)).countP (fun j => decide (j % 14 = c) && p (j / 14)) = (List.range lines).countP p := by
  induction lines with
  | zero => rfl
  | succ l ih =>
    have hline : (List.range 14).countP ((fun j => decide (j % 14 = c) && p (j / 14)) ∘ fun i => 14 * l + i) =
        (List.range 14).countP (fun i => decide (i = c) && p l) :=
      List.countP_congr fun i hi => by
        have hi : i < 14 := List.mem_range.1 hi
        have hmod : (14 * l + i) % 14 = i := by omega
        have hdiv : (14 * l + i) / 14 = l := by omega
        simp only [Function.comp, hmod, hdiv]
    have hcycle : (List.range 14).countP (fun i => decide (i = c) && p l) = if p l = true then 1 else 0 := by
      cases p l with
      | false => simp
      | true => simpa only [Bool.and_true, if_true] using countP_range_eq hc
    rw [Nat.mul_succ, List.range_add, List.countP_append, ih, List.countP_map, hline, hcycle, List.range_succ,
      List.countP_append, List.countP_singleton]

/-- In a frame of calls from line 0, cycle 0, what depends on the counters and happens at one cycle of a line happens
once for each line of the frame at which it does. -/
theorem countP_frame {q : Video → Bool} {c k : Nat} (hc : c < 14) (p : Nat → Bool)
    (hq : ∀ cycle line, q ⟨true, cycle, line, k⟩ = (decide (cycle = c) && p line)) :
    (List.range (14 * 262)).countP (fun j => q (Video.advance^[j] ⟨true, 0, 0, k⟩)) = (List.range 262).countP p := by
  rw [← countP_range_lines hc p]
  refine List.countP_congr fun j hj => ?_
  have hj : j < 14 * 262 := List.mem_range.1 hj
  have hline : j / 14 % 262 = j / 14 := by omega
  have hvideo : Video.advance^[j] ⟨true, 0, 0, k⟩ = ⟨true, j % 14, j / 14, k⟩ := by
    rw [show (⟨true, 0, 0, k⟩ : Video) = Video.atCount ⟨true, 0, 0, k⟩ 0 from rfl, advance_iterate_atCount,
      Nat.zero_add, Video.atCount, hline]
  rw [hvideo, hq]

/-- Settles O46: a frame is a whole number of turns of both counters; its requests are counted line by line. -/
theorem frameIsPeriodic : Obligations.FrameIsPeriodic := by
  refine ⟨fun v hc hl => ?_, fun k => ⟨?_, ?_, ?_⟩⟩
  · calc Video.advance^[14 * 262] v = Video.advance^[14 * 262] (v.atCount v.count) := by rw [atCount_count hc hl]
      _ = v.atCount v.count := by rw [advance_iterate_atCount, atCount_add_frame]
      _ = v := atCount_count hc hl
  · exact (countP_frame (c := 2) (by decide) _ fun _ _ => Bool.and_assoc ..).trans (countP_range_between 64 191 262)
  · exact (countP_frame (c := 0) (by decide) _ fun _ _ => rfl).trans (countP_range_eq (c := 62) (by decide))
  · exact (countP_frame (c := 0) (by decide) _ fun _ _ => rfl).trans (countP_range_eq (c := 192) (by decide))

end Sys2Proof.Machine
end

section
/-! PROOFS. Interrupts: the latch of a request (O37), the decision (O38) and the Interrupt cycle (O39). -/

namespace Sys2Proof.Machine

/-- Settles O37: the two cases of a request. -/
theorem interruptRequestIsLatched : Obligations.InterruptRequestIsLatched := by
  intro s
  rcases issueInterrupt_cases s with ⟨hp, he⟩ | ⟨hp, he⟩
  · exact ⟨fun _ => he, fun hn => absurd (hp.symm.trans hn) (by decide)⟩
  · exact ⟨fun hn => absurd (hp.symm.trans hn) (by decide), fun _ => he⟩

/-- Settles O38: the arbitration is the decision, which looks at the latched IE alone. -/
theorem interruptDecisionUsesLatchedIe : Obligations.InterruptDecisionUsesLatchedIe := by
  intro s hin hout hp
  obtain ⟨-, -, hdecision, -⟩ := arbitrationOrder s
  exact hdecision hin hout hp

/-- Settles O39: the cycle is the entry. -/
theorem interruptCycleSavesXAndP : Obligations.InterruptCycleSavesXAndP := by
  intro s hc
  have hentry : s.cpuStep = .next s.interruptEntry := by simp only [State.cpuStep, hc]
  rw [hentry, interruptEntry_eq]
  rfl

end Sys2Proof.Machine
end

section
/-! PROOFS. The video controller's calls: `SetDisplay` (O47), the transfer callback (O48) and `Sync()` (O45), of which
each part is one equation. -/

namespace Sys2Proof.Machine

variable {s : State}

/-! ## The display switch and the pixel sink -/

/-- A disable calls clear-frame first, so that the present call is the newer one (60 R328). -/
theorem setDisplay_false_out (s : State) : (s.setDisplay false).env.out =
    (if s.plat.wiring.attached.present then [.present] else []) ++
      ((if s.plat.wiring.attached.clearFrame then [.clearFrame] else []) ++ s.env.out) := by
  rw [State.setDisplay, if_neg Bool.false_ne_true, State.present, State.clearFrame, emit_eq, emit_eq]
  dsimp only
  split_ifs <;> rfl

/-- Settles O47: an enable by its definition, a disable by what it changes and the calls that it makes. -/
theorem setDisplaySwitches : Obligations.SetDisplaySwitches := by
  intro s
  have hstays := setDisplay_eq s false
  refine ⟨rfl, ?_, setDisplay_false_out s, ?_, ?_, ?_⟩ <;> rw [hstays]
  rfl

theorem dmaOutByte_out (s : State) (ctx : Nat) (b : Byte) : (s.dmaOutByte ctx b).env.out =
    if s.plat.wiring.attached.pixel then
      .pixel b ((s.video.line : Int) - 64) (s.video.cursor % 8) ctx :: s.env.out else s.env.out := by
  rw [State.dmaOutByte, emit_eq]

/-- Settles O48: the call to the sink, and what the callback changes. -/
theorem dmaOutByteReachesPixelSink : Obligations.DmaOutByteReachesPixelSink := by
  intro s ctx b t
  have hstays : t = _ := dmaOutByte_eq s ctx b
  refine ⟨?_, dmaOutByte_out s ctx b, ?_, ?_, ?_, ?_⟩ <;> rw [hstays]
  rfl

/-! ## `Sync()` -/

theorem requestsInterrupt_iff {v : Video} :
    v.requestsInterrupt = true ↔ v.display = true ∧ v.cycle = 0 ∧ v.line = 62 := by
  simp [Video.requestsInterrupt, and_assoc]

theorem requestsDma_iff {v : Video} :
    v.requestsDma = true ↔ v.display = true ∧ v.cycle = 2 ∧ 64 ≤ v.line ∧ v.line ≤ 191 := by
  simp [Video.requestsDma, and_assoc]

theorem writesFlag_iff {v : Video} : v.writesFlag = true ↔ v.display = true ∧ v.cycle = 0 := by
  simp [Video.writesFlag]

/-- The display state matters to the flag and the requests alone (60 R326). -/
theorem presents_iff {v : Video} : v.presents = true ↔ v.cycle = 0 ∧ v.line = 192 := by
  simp [Video.presents]

theorem inFlagWindow_eq (v : Video) :
    v.inFlagWindow = decide ((60 ≤ v.line ∧ v.line ≤ 63) ∨ (188 ≤ v.line ∧ v.line ≤ 191)) := by
  simp [Video.inFlagWindow]

theorem sync_cpu (s : State) :
    s.sync.cpu = (if s.video.writesFlag then s.setEf Config.videoEf s.video.inFlagWindow else s).cpu := by
  rw [sync_eq]

theorem sync_plat (s : State) : s.sync.plat = s.plat := by rw [sync_eq]

theorem sync_clock (s : State) : s.sync.clock = s.clock := by rw [sync_eq]

/-- A conditional operation keeps what the operation keeps. -/
theorem when_keeps {α : Type} (f : State → α) {b : Bool} {u : State} (h : f u = f s) :
    f (if b = true then u else s) = f s := by
  split
  · exact h
  · rfl

/-- The two requests are made at different cycles of a line, and neither looks at the external flag (60 R321). -/
theorem sync_stepper (s : State) : s.sync.stepper =
    if s.video.requestsInterrupt then s.issueInterrupt.stepper
    else if s.video.requestsDma then (s.issueDma .output ⟨8, Config.videoCtx, .video⟩).stepper
    else s.stepper := by
  unfold State.sync
  extract_lets v s1 s2 s3 s4
  have hstepper1 : s1.stepper = s.stepper := when_keeps State.stepper rfl
  have hie1 : s1.cpu.ie = s.cpu.ie := when_keeps (·.cpu.ie) rfl
  have h4 : s4.stepper = s3.stepper := when_keeps State.stepper (by rw [State.present, emit_eq])
  rw [h4]
  cases hi : v.requestsInterrupt with
  | true =>
    obtain ⟨-, hc, -⟩ := requestsInterrupt_iff.1 hi
    have hd : ¬ v.requestsDma = true := fun hd => by
      obtain ⟨-, hc', -⟩ := requestsDma_iff.1 hd
      omega
    obtain ⟨h2, -⟩ := request_congr .interrupt hstepper1 hie1
    rw [show s3 = s1.issueInterrupt from (if_neg hd).trans (if_pos hi), if_pos rfl]
    exact h2
  | false =>
    have h2 : s2 = s1 := if_neg (by simp [hi])
    rw [if_neg Bool.false_ne_true]
    cases hd : v.requestsDma with
    | true =>
      obtain ⟨h3, -⟩ := request_congr (.dma .output ⟨8, Config.videoCtx, .video⟩) hstepper1 hie1
      rw [show s3 = s1.issueDma .output ⟨8, Config.videoCtx, .video⟩ from h2 ▸ if_pos hd, if_pos rfl]
      exact h3
    | false =>
      rw [show s3 = s1 from (if_neg (by simp [hd])).trans h2, if_neg Bool.false_ne_true]
      exact hstepper1

/-- The present callback is the only one that a call makes (60 R326). -/
theorem sync_out (s : State) : s.sync.env.out =
    if s.video.presents = true ∧ s.plat.wiring.attached.present = true then .present :: s.env.out else s.env.out := by
  unfold State.sync
  extract_lets v s1 s2 s3 s4
  have henv : s3.env = s.env :=
    calc s3.env = s2.env := when_keeps State.env (request_env s2 (.dma .output _))
      _ = s1.env := when_keeps State.env (request_env s1 .interrupt)
      _ = s.env := when_keeps State.env rfl
  have hplat : s3.plat = s.plat :=
    calc s3.plat = s2.plat := when_keeps State.plat (request_plat s2 (.dma .output _))
      _ = s1.plat := when_keeps State.plat (request_plat s1 .interrupt)
      _ = s.plat := when_keeps State.plat rfl
  have hpresent : s3.present.env.out =
      if s.plat.wiring.attached.present = true then .present :: s.env.out else s.env.out := by
    rw [State.present, emit_eq, hplat, henv]
  rw [ite_and, ← hpresent, ← henv]
  exact apply_ite (fun u : State => u.env.out) _ _ _

theorem advance_eq (v : Video) : v.advance = { v with
    cycle := if v.cycle + 1 = 14 then 0 else v.cycle + 1
    line := if v.cycle + 1 = 14 then (if v.line + 1 = 262 then 0 else v.line + 1) else v.line } := by
  unfold Video.advance Config.lineCycles Config.frameLines
  split_ifs <;> rfl

/-- Settles O45: each part of a call by the counters at which it happens. -/
theorem syncFollowsTheCounters : Obligations.SyncFollowsTheCounters := by
  intro s c l t
  have hoff (hd : s.video.display = false) : t.cpu = s.cpu ∧ t.stepper = s.stepper := by
    have hcpu := sync_cpu s
    have hstepper := sync_stepper s
    rw [if_neg (by simp [writesFlag_iff, hd])] at hcpu
    rw [if_neg (by simp [requestsInterrupt_iff, hd]), if_neg (by simp [requestsDma_iff, hd])] at hstepper
    exact ⟨hcpu, hstepper⟩
  have hflag (hd : s.video.display = true) (hc : c = 0) (k : Fin 4) : t.efBit k =
      if k = 0 then decide ((60 ≤ l ∧ l ≤ 63) ∨ (188 ≤ l ∧ l ≤ 191)) else s.efBit k := by
    have hcpu := sync_cpu s
    rw [if_pos (writesFlag_iff.2 ⟨hd, hc⟩), inFlagWindow_eq] at hcpu
    exact (congrArg (fun u : Cpu => u.ef[k]) hcpu).trans (efBit_setEf s _ k _)
  refine ⟨hoff, fun hd hc => ⟨?_, fun k hk => ?_⟩, fun hc => ?_, fun hd hc hl => ?_, fun hd hc hlo hhi => ?_,
    fun hi hd => ?_, ?_, ?_, ?_, ?_⟩
  · rw [hflag hd hc, if_pos rfl]
  · rw [hflag hd hc, if_neg hk]
  · exact (sync_cpu s).trans (congrArg State.cpu (if_neg fun h => hc (writesFlag_iff.1 h).2))
  · exact (sync_stepper s).trans (if_pos (requestsInterrupt_iff.2 ⟨hd, hc, hl⟩))
  · have hi : ¬ s.video.requestsInterrupt = true := fun h => by
      obtain ⟨-, hc', -⟩ := requestsInterrupt_iff.1 h
      omega
    exact (sync_stepper s).trans ((if_neg hi).trans (if_pos (requestsDma_iff.2 ⟨hd, hc, hlo, hhi⟩)))
  · exact (sync_stepper s).trans ((if_neg fun h => hi (requestsInterrupt_iff.1 h).2).trans
      (if_neg fun h => hd (requestsDma_iff.1 h).2))
  · simpa only [presents_iff, and_assoc] using sync_out s
  · exact (congrArg State.video (sync_eq s)).trans (advance_eq s.video)
  · exact sync_plat s
  · exact sync_clock s

end Sys2Proof.Machine
end

section
/-! PROOFS. What an output device does (O34): an output is first one equation, and then device by device. -/

namespace Sys2Proof.Machine

variable {s t : State} {n : Port}

theorem RequestsOnly.cpu (h : RequestsOnly s t) : t.cpu = s.cpu := by rw [h]

theorem RequestsOnly.clock (h : RequestsOnly s t) : t.clock = s.clock := by rw [h]

theorem RequestsOnly.plat (h : RequestsOnly s t) : t.plat = s.plat := by rw [h]

/-- The keypad drives an EF bit and nothing else (60 R350). -/
theorem driveKeypad_eq (s : State) :
    s.driveKeypad = { s with cpu := { s.cpu with ef := s.driveKeypad.cpu.ef } } := by
  unfold State.driveKeypad
  split <;> rfl

/-- Only a VP595 has a divider to set (60 R341). -/
theorem setRate_eq (s : State) (b : Byte) : s.setRate b = { s with plat := { s.plat with
    divideRate := if s.plat.board = .vp595 then b.toNat + 1 else s.plat.divideRate } } := by
  unfold State.setRate
  split
  · next h => rw [if_pos h]
  · next h => rw [if_neg h]

/-- No device on an output port writes a register of the board (60 R351). -/
theorem deviceOut_board (s : State) (dev : OutDevice) (b : Byte) :
    (s.deviceOut dev b).plat.board = s.plat.board := by
  cases dev with
  | ignored => rfl
  | displayOff => rw [State.deviceOut, setDisplay_eq]
  | keyLatch => rw [State.deviceOut, driveKeypad_eq]
  | divider => rw [State.deviceOut, setRate_eq]
  | external => rw [State.deviceOut, (react_only s).plat]

/-- Without a callback nothing is called and no device is reached (00 R14, log 7). -/
theorem portOut_of_not_attached (b : Byte) (ha : s.plat.wiring.attached.portOut = false) :
    s.portOut n b = s.touch .portOut n.toNat := by
  simp [State.portOut, ha]

section
variable (b : Byte) (hbg : (∀ v, s.plat.board ≠ .vp590 v) ∨ Config.vp590BackgroundPort ≠ (.output, n))
variable (ha : s.plat.wiring.attached.portOut = true)
include hbg ha

/-- On a port that is not the VP590's background port an output is the port map's device alone (60 R351). -/
theorem portOut_of_attached {dev : OutDevice} (hdev : s.plat.wiring.out[n.toNat]'n.isLt = dev) :
    s.portOut n b = ((s.emit true (.portOut n b)).deviceOut dev b).touch .portOut n.toNat := by
  have hboard : ((s.emit true (.portOut n b)).deviceOut dev b).plat.board = s.plat.board := deviceOut_board _ dev b
  unfold State.portOut
  rw [if_pos ha, hdev]
  dsimp only
  rw [stepBackground_none (by rwa [hboard])]

theorem portOut_displayOff (hdev : s.plat.wiring.out[n.toNat]'n.isLt = .displayOff) :
    (s.portOut n b).video = { s.video with display := false, cursor := 0 } ∧ (s.portOut n b).cpu = s.cpu ∧
    (s.portOut n b).stepper = s.stepper := by
  rw [portOut_of_attached b hbg ha hdev, State.deviceOut, setDisplay_eq]
  exact ⟨rfl, rfl, rfl⟩

section
variable (hdev : s.plat.wiring.out[n.toNat]'n.isLt = .keyLatch)
include hdev

/-- The key latch takes the low nibble, and then the keypad drives its EF line (60 R350, log 16). -/
theorem portOut_keyLatch : s.portOut n b =
    ({ s.emit true (.portOut n b) with plat := { s.plat with keyLatch := lowNibble b } } : State).driveKeypad.touch
      .portOut n.toNat :=
  portOut_of_attached b hbg ha hdev

theorem portOut_keyLatch_frame :
    (s.portOut n b).plat.keyLatch = lowNibble b ∧ (s.portOut n b).plat.keys = s.plat.keys ∧
    (s.portOut n b).video = s.video ∧ (s.portOut n b).stepper = s.stepper := by
  rw [portOut_keyLatch b hbg ha hdev, driveKeypad_eq]
  exact ⟨rfl, rfl, rfl, rfl⟩

theorem portOut_keyLatch_cpu (hk : s.plat.wiring.keypadEf = none) : (s.portOut n b).cpu = s.cpu := by
  rw [portOut_keyLatch b hbg ha hdev, driveKeypad_none]
  · rfl
  · exact hk

/-- The EF line follows the key of the new number (60 R350). -/
theorem portOut_keyLatch_efBit {k : Fin 4} (hk : s.plat.wiring.keypadEf = some k) (j : Fin 4) :
    (s.portOut n b).efBit j = if j = k then s.plat.keys.getLsbD (lowNibble b).toNat else s.efBit j := by
  rw [portOut_keyLatch b hbg ha hdev, driveKeypad_some (k := k)]
  · exact efBit_setEf _ k j _
  · exact hk

end

theorem portOut_divider (hdev : s.plat.wiring.out[n.toNat]'n.isLt = .divider) :
    (s.portOut n b).plat.divideRate = (if s.plat.board = .vp595 then b.toNat + 1 else s.plat.divideRate) ∧
    (s.portOut n b).cpu = s.cpu ∧ (s.portOut n b).video = s.video ∧ (s.portOut n b).stepper = s.stepper := by
  rw [portOut_of_attached b hbg ha hdev, State.deviceOut, setRate_eq]
  exact ⟨rfl, rfl, rfl, rfl⟩

/-- A device of the host's is told the byte and may issue requests (45 R285, log 2). -/
theorem portOut_external (hdev : s.plat.wiring.out[n.toNat]'n.isLt = .external) :
    s.portOut n b = (s.emit true (.portOut n b)).react.touch .portOut n.toNat :=
  portOut_of_attached b hbg ha hdev

theorem portOut_external_frame (hdev : s.plat.wiring.out[n.toNat]'n.isLt = .external) :
    (s.portOut n b).cpu = s.cpu ∧ (s.portOut n b).video = s.video ∧ (s.portOut n b).clock = s.clock ∧
    (s.portOut n b).plat = { s.plat with latch := (s.portOut n b).plat.latch } := by
  have hreact : RequestsOnly s (s.emit true (.portOut n b)).react := (emit_only _ _ _).trans (react_only _)
  rw [portOut_external b hbg ha hdev]
  refine ⟨hreact.cpu, hreact.video, hreact.clock, ?_⟩
  unfold State.touch
  rw [hreact.plat]

theorem portOut_external_host (hdev : s.plat.wiring.out[n.toNat]'n.isLt = .external) :
    (s.portOut n b).stepper = ((s.env.reactions.headD []).foldl State.request s).stepper ∧
    (s.portOut n b).env = { s.env with reactions := s.env.reactions.tail, out := .portOut n b :: s.env.out } := by
  rw [portOut_external b hbg ha hdev, touch_stepper, touch_env, react_env]
  exact ⟨react_stepper_congr rfl rfl rfl, rfl⟩

end

/-- Settles O34: an output without a callback, and then each device. -/
theorem outputDevices : Obligations.OutputDevices := by
  intro s n b hbg t
  refine ⟨portOut_of_not_attached b, fun ha => ⟨portOut_displayOff b hbg ha, fun hdev => ?_,
    portOut_divider b hbg ha, fun hdev => ?_, portOut_of_attached b hbg ha⟩⟩
  · obtain ⟨hlatch, hkeys, hvideo, hstepper⟩ := portOut_keyLatch_frame b hbg ha hdev
    refine ⟨hlatch, hvideo, hstepper, (portOut_only s n b).cpu, portOut_keyLatch_cpu b hbg ha hdev, fun k hk => ?_⟩
    have hef := portOut_keyLatch_efBit b hbg ha hdev hk
    have hdown : t.plat.keyDown = s.plat.keys.getLsbD (lowNibble b).toNat := by
      rw [Platform.keyDown, hkeys, hlatch]
    exact ⟨(hef k).trans ((if_pos rfl).trans hdown.symm), hdown, fun j hj => (hef j).trans (if_neg hj)⟩
  · obtain ⟨hcpu, hvideo, hclock, hplat⟩ := portOut_external_frame b hbg ha hdev
    obtain ⟨hstepper, henv⟩ := portOut_external_host b hbg ha hdev
    refine ⟨?_, hcpu, hvideo, hclock, hplat, fun hr => ?_, fun rs rest hr => ?_⟩
    · simp [t, henv]
    · simp [t, hstepper, hr]
    · simp [t, hstepper, henv, hr]

end Sys2Proof.Machine
end

section
/-! PROOFS. The expansion boards (O36): what a swap changes, how the VP590's region comes last in the map, its write
hook, and its background port. -/

namespace Sys2Proof.Machine

variable {s : State}

/-! ## The swap -/

theorem swapBoard_board (s : State) (k : BoardKind) : (s.swapBoard k).plat.board = match k with
    | .none => .none
    | .vp585 => .vp585
    | .vp590 => .vp590 .initial
    | .vp595 => .vp595 := by
  cases k <;> rfl

theorem swapBoard_regions (s : State) (k : BoardKind) : (s.swapBoard k).plat.regions =
    (s.plat.regions.filter fun r => decide (r.hook ≠ some .vp590)) ++ if k = .vp590 then [vp590Region] else [] := by
  rw [swapBoard_eq]

/-! ## The VP590's region in the map -/

theorem map_of_rom_none {q : Platform} (hm : q.rom = none) : q.map = q.regions := by
  unfold Platform.map
  split
  · next hrom => simp [hm] at hrom
  · rfl

/-- The ROM shadow keeps what a region covers and its hook (20 R85). -/
theorem exists_region_of_mem_map {q : Platform} {r : Region} (h : r ∈ q.map) :
    ∃ r' ∈ q.regions, r'.start = r.start ∧ r'.stop = r.stop ∧ r'.hook = r.hook := by
  unfold Platform.map at h
  split at h
  · next r' rest m hrs _ _ =>
    rcases List.mem_cons.1 h with rfl | h
    · exact ⟨r', by simp [hrs], rfl, rfl, rfl⟩
    · exact ⟨r, by simp [hrs, h], rfl, rfl, rfl⟩
  · exact ⟨r, h, rfl, rfl, rfl⟩

/-- A region appended to the list comes last in the map too; only where it is the whole list can it be region 0, and the
shadow keeps what it covers and its hook. -/
theorem map_concat {p q : Platform} {r : Region} (hrs : q.regions = p.regions ++ [r]) (hl : q.latch = p.latch)
    (hm : q.rom = p.rom) :
    ∃ r', r'.start = r.start ∧ r'.stop = r.stop ∧ r'.hook = r.hook ∧ q.map = p.map ++ [r'] := by
  cases hlatch : p.latch with
  | false => exact ⟨r, rfl, rfl, rfl, by rw [map_of_not_latch (hl.trans hlatch), map_of_not_latch hlatch, hrs]⟩
  | true => cases hrom : p.rom with
    | none => exact ⟨r, rfl, rfl, rfl, by rw [map_of_rom_none (hm.trans hrom), map_of_rom_none hrom, hrs]⟩
    | some m => cases hp : p.regions with
      | nil =>
        rw [hp] at hrs
        refine ⟨r.shadowed m, rfl, rfl, rfl, ?_⟩
        rw [map_of_latch hrs (hm.trans hrom) (hl.trans hlatch), Platform.map, hp]
        rfl
      | cons r0 rs =>
        rw [hp] at hrs
        refine ⟨r, rfl, rfl, rfl, ?_⟩
        rw [map_of_latch hrs (hm.trans hrom) (hl.trans hlatch), map_of_latch hp hrom hlatch]
        rfl

/-- With a VP590 an address is resolved as without it, and only where that finds no region as the VP590's (20 R86). -/
theorem swapBoard_vp590_select (s : State) : ∃ r, r.hook = some .vp590 ∧
    ∀ a : Word, (s.swapBoard .vp590).select a =
      ((s.swapBoard .none).select a).or (if 0xC000 ≤ a ∧ a ≤ 0xDFFF then some r else none) := by
  have hregions : (s.swapBoard .vp590).plat.regions = (s.swapBoard .none).plat.regions ++ [vp590Region] := by
    simp [swapBoard_regions]
  obtain ⟨r, hstart, hstop, hhook, hmap⟩ := map_concat hregions rfl rfl
  refine ⟨r, hhook, fun a => ?_⟩
  have hcovers : r.covers a = true ↔ 0xC000 ≤ a ∧ a ≤ 0xDFFF := by
    rw [Region.covers_iff, hstart, hstop]
    rfl
  rw [State.select, hmap, List.find?_append, List.find?_singleton]
  simp only [hcovers]
  rfl

/-- Where no other region covers an address, the map without a VP590 selects none. -/
theorem swapBoard_none_select {a : Word}
    (h : ∀ r ∈ s.plat.regions, r.hook ≠ some .vp590 → ¬ (r.start ≤ a ∧ a ≤ r.stop)) :
    (s.swapBoard .none).select a = none := by
  refine List.find?_eq_none.2 fun r hr hcovers => ?_
  obtain ⟨r', hr', hstart, hstop, -⟩ := exists_region_of_mem_map hr
  rw [swapBoard_regions, if_neg (by decide), List.append_nil, List.mem_filter, decide_eq_true_iff] at hr'
  obtain ⟨hmem, hhook⟩ := hr'
  refine h r' hmem hhook ?_
  rw [hstart, hstop]
  exact Region.covers_iff.1 hcovers

/-! ## The write hook -/

/-- A write that a region with the hook receives reaches the VP590's registers, even without the write bit (20 R76). -/
theorem memWrite_vp590 {a : Word} {r : Region} {b : Vp590} (v : Byte) (hb : s.plat.board = .vp590 b)
    (hsel : s.select a = some r) (hhook : r.hook = some .vp590) :
    (s.memWrite a v).plat.board = .vp590 (b.written a v) := by
  rw [memWrite_board, hsel, hb, Option.bind_some, hhook]

/-- The resolution follows address bit 0x1000 (60 R333). -/
theorem written_high (b : Vp590) (a : Word) (v : Byte) :
    (b.written a v).high = (a.getLsbD 12 == Config.vp590BitSetIsHigh) := by
  have hbit : decide (a &&& 0x1000 ≠ 0) = a.getLsbD 12 := by
    rw [show (0x1000 : Word) = BitVec.twoPow 16 12 from rfl, BitVec.and_twoPow]
    cases a.getLsbD 12 <;> rfl
  rw [Vp590.written, hbit]

/-! ## The background port -/

section
variable {b : Vp590} (n : Port) (hb : s.plat.board = .vp590 b)
include hb

theorem portOut_board (c : Byte) : (s.portOut n c).plat.board =
    if s.plat.wiring.attached.portOut = true ∧ Config.vp590BackgroundPort = (.output, n)
      then .vp590 { b with background := b.background + 1 } else s.plat.board := by
  cases ha : s.plat.wiring.attached.portOut with
  | false => rw [portOut_of_not_attached c ha, if_neg (by simp)]; rfl
  | true =>
    have hdev : ((s.emit true (.portOut n c)).deviceOut (s.plat.wiring.out[n.toNat]'n.isLt) c).plat.board = .vp590 b :=
      (deviceOut_board _ _ c).trans hb
    rw [State.portOut, if_pos ha, touch_plat_board, stepBackground_board .output n hdev, hb]
    simp only [true_and]

theorem portIn_board : (s.portIn n).2.plat.board =
    if s.plat.wiring.attached.portIn = true ∧ Config.vp590BackgroundPort = (.input, n)
      then .vp590 { b with background := b.background + 1 } else s.plat.board := by
  cases ha : s.plat.wiring.attached.portIn with
  | false => rw [portIn_of_not_attached ha, if_neg (by simp)]; rfl
  | true =>
    have hdev : ((s.emit true (.portIn n)).deviceIn (s.plat.wiring.inp[n.toNat]'n.isLt)).2.plat.board = .vp590 b := by
      rw [deviceIn_eq]
      exact hb
    rw [State.portIn, if_pos ha, touch_plat_board, stepBackground_board .input n hdev, hb]
    simp only [true_and]

/-- An input from the background port answers the VP590's byte, whatever the port map has there (60 R351). -/
theorem portIn_background (ha : s.plat.wiring.attached.portIn = true) (hp : Config.vp590BackgroundPort = (.input, n)) :
    (s.portIn n).1 = Config.vp590BackgroundByte := by
  have hat : s.atBackground n = true := by
    rw [State.atBackground, hb]
    exact decide_eq_true hp
  rw [State.portIn, if_pos ha]
  exact if_pos hat

end

/-- Settles O36: the swap, the map with a VP590, its hook, and its background port. -/
theorem expansionBoards : Obligations.ExpansionBoards := by
  refine ⟨fun s k => ⟨?_, swapBoard_board s k, fun hk => ?_, fun hk => ?_⟩,
    fun s a => ⟨fun hlo hhi hfree => ?_, fun ha => ?_⟩,
    fun s a v b r hb hsel hhook => ⟨_, memWrite_vp590 v hb hsel hhook, rfl, rfl, written_high b a v⟩,
    vp590BackgroundPort_ne_zero,
    fun s n c b hb => ⟨portOut_board n hb c, portIn_board n hb, portIn_background n hb⟩⟩
  · rw [swapBoard_regions]
    exact swapBoard_eq s k
  · rw [swapBoard_regions, if_neg hk, List.append_nil]
  · exact ⟨vp590Region, by rw [swapBoard_regions, if_pos hk], rfl, rfl, rfl⟩
  · obtain ⟨r, hhook, hselect⟩ := swapBoard_vp590_select s
    have hsel : (s.swapBoard .vp590).select a = some r := by
      rw [hselect, swapBoard_none_select hfree, if_pos ⟨hlo, hhi⟩]
      rfl
    exact ⟨r, hsel, hhook, fun v => memWrite_vp590 v (swapBoard_board s .vp590) hsel hhook⟩
  · obtain ⟨r, -, hselect⟩ := swapBoard_vp590_select s
    rw [hselect, if_neg ha, Option.or_none]

end Sys2Proof.Machine
end

section
/-! PROOFS. Reset and the control modes: what the Reset transition sets and keeps (O49), and what each control-mode call
does (O50). -/

namespace Sys2Proof.Machine

variable {s : State}

/-! ## The Reset transition -/

@[simp] theorem resetTransition_reg (s : State) (n : Nibble) : (s.resetTransition .allZero).reg n = 0 :=
  Vector.getElem_replicate ..

/-- The EF bits are false under either scope (92 D12). -/
@[simp] theorem resetTransition_efBit (s : State) (scope : ResetScope) (k : Fin 4) :
    (s.resetTransition scope).efBit k = false := by
  cases scope <;> exact Vector.getElem_replicate ..

/-- `ListedOnly` keeps what the spec does not list, and does the rest as `AllZero` does (10 R56). -/
theorem resetTransition_listedOnly (s : State) :
    s.resetTransition .listedOnly = { s.resetTransition .allZero with
      cpu := { (s.resetTransition .allZero).cpu with
        r := s.cpu.r, p := s.cpu.p, x := s.cpu.x, d := s.cpu.d, df := s.cpu.df, b := s.cpu.b, t := s.cpu.t } } := rfl

/-- Settles O49: apart from the R registers and the EF bits, every value is one of the literals of the reset state. -/
theorem resetTransitionValues : Obligations.ResetTransitionValues := by
  intro s t
  have hreg : ∀ n, t.reg n = 0 := resetTransition_reg s
  have hef : ∀ k, t.efBit k = false := resetTransition_efBit s _
  exact ⟨rfl, rfl, rfl, rfl, hreg, rfl, rfl, rfl, rfl, rfl, rfl, hef, rfl, rfl, rfl, rfl, rfl, rfl, rfl, rfl, rfl, rfl,
    rfl, rfl, rfl, resetTransition_listedOnly s⟩

/-! ## Control-mode calls -/

/-- To Run from another mode than Reset, no register changes (70 R380). -/
theorem setControlMode_run_of_ne_reset (now : Rat) (h : s.clock.mode ≠ .reset) :
    s.setControlMode .run now = { s with clock := { s.clock with mode := .run, lastTime := now } } := by
  simp only [State.setControlMode, State.modeAction, if_neg h]

/-- To Run from Reset, the power-up pass comes first (70 R384). -/
theorem setControlMode_run_of_reset (now : Rat) (h : s.clock.mode = .reset) :
    s.setControlMode .run now = { s with
      cpu := { s.cpu with x := 0, p := 0, r := s.cpu.r.set 0 0 }
      clock := { s.clock with mode := .run, lastTime := now } } := by
  simp only [State.setControlMode, State.modeAction, if_pos h]
  rfl

/-! ## Outside Run -/

/-- The keypad's line shows whether the latched key is down, and the other EF bits stay (60 R350). -/
theorem driveKeypad_efBit {k : Fin 4} (hk : s.plat.wiring.keypadEf = some k) (j : Fin 4) :
    s.driveKeypad.efBit j = if j = k then s.plat.keyDown else s.efBit j := by
  rw [driveKeypad_some hk, efBit_setEf]

theorem driveKeypad_clock (s : State) : s.driveKeypad.clock = s.clock := by
  rw [driveKeypad_eq]

/-- Outside Run and with nothing scripted, a step drives the keypad's line (40 R124). -/
theorem step_outside_run_of_script_nil (hscript : s.env.script = []) (hmode : s.clock.mode ≠ .run) :
    step s = .next s.driveKeypad := by
  have hturn : s.hostTurn = s.driveKeypad := hostTurn_nil hscript
  have hturn_mode : s.hostTurn.clock.mode ≠ .run := by rwa [hturn, driveKeypad_clock]
  rw [step_outside_run hturn_mode, hturn]

/-- Settles O50: the calls one by one, and then the step outside Run with the line that its turn drives. -/
theorem controlModeCalls : Obligations.ControlModeCalls := by
  intro s now
  refine ⟨rfl, rfl, rfl, setControlMode_run_of_ne_reset now, setControlMode_run_of_reset now, step_outside_run,
    step_outside_run_of_script_nil, driveKeypad_eq s, driveKeypad_none, fun k hk => ⟨?_, fun j hj => ?_⟩⟩
  · rw [driveKeypad_efBit hk, if_pos rfl, Platform.keyDown]
  · rw [driveKeypad_efBit hk, if_neg hj]

end Sys2Proof.Machine
end
